-- ==== Sys2Proof/Word.lean ====
section
/-! DEFINITION. The widths of 00_scope.md R6 and R7, and the bit order of 10_state.md R26. -/

namespace Sys2Proof

/-- `u8`: one byte (00_scope.md R7). -/
abbrev Byte := BitVec 8

/-- `u32`: a register, polynomial, checksum, operand or command word (R6, `W`). -/
abbrev Word := BitVec 32

/-- `u64`: the byte counter and the result port (R6, `TBR_W`, `RESULT_W`). -/
abbrev DWord := BitVec 64

/-- The bit order (10_state.md R26): `normal` is the value 0, the shift-right datapath with the
unreversed table; `reflected` is the value 1, the shift-left datapath with the bit-reversed table.
Which datapath each name denotes follows 90_conflicts.md C1. -/
inductive BitOrder where
  | normal
  | reflected
  deriving DecidableEq, Repr, Inhabited

end Sys2Proof
end

