-- ==== Sys2Proof/Config.lean ====
section
/-! DEFINITION. The parameters of 00_scope.md R6 and the values the spec leaves free (R9, `draw`). -/

namespace Sys2Proof

/-- `REG_INIT`, the all-ones register (00_scope.md R6). -/
def Config.regInit : Word := 0xFFFFFFFF#32

/-- The default of `CHUNK_SIZE` (R6, 92_eei_decisions.md D15). The machine's own value is
`State.chunkSize`, so that every statement holds for every chunk size. -/
def Config.chunkSizeDefault : Nat := 8192

/-- `NMAX`, the largest Adler sub-block (R6). -/
def Config.nmax : Nat := 5552

/-- `ADLER_BASE` (R6). -/
def Config.adlerBase : Nat := 65521

/-- `IoErr`, the opaque type of host I/O error tokens (R6, 92_eei_decisions.md D16). No definition
of the model looks into a token. DESIGN CHOICE, safe: tokens are natural numbers (log entry 9). -/
abbrev Config.IoErr := Nat

/-- `REG` after an I/O error: `draw u32` (41_crc_update.md R102). A free value, one for each source of
draws and each count of draws (log entries 7 and 10). -/
opaque Config.drawReg : Nat → Nat → Word

/-- `TBR` after an I/O error: `draw u64` (41_crc_update.md R102). A free value
(log entries 7 and 10). -/
opaque Config.drawTbr : Nat → Nat → DWord

/-- `POLY` after a hardware reset: UNSPEC, any value (70_reset_and_hazards.md R155,
93_implementation_defined.md U13). A free value (log entries 6, 7 and 10). -/
opaque Config.unspecPoly : Nat → Nat → Word

/-- `BITORD` after a hardware reset: UNSPEC (R155). A free value (log entries 6, 7 and 10). -/
opaque Config.unspecBitord : Nat → Nat → BitOrder

/-- `TABLE` after a hardware reset: UNSPEC (R155). A free value (log entries 6, 7 and 10). -/
opaque Config.unspecTable : Nat → Nat → Vector Word 256

/-- `REG` after a hardware reset: UNSPEC (R155). A free value (log entries 6, 7 and 10). -/
opaque Config.unspecReg : Nat → Nat → Word

/-- `TBR` after a hardware reset: UNSPEC (R155). A free value (log entries 6, 7 and 10). -/
opaque Config.unspecTbr : Nat → Nat → DWord

end Sys2Proof
end

