-- ==== Sys2Proof/Syntax.lean ====
section
/-! DEFINITION. The eleven commands of 30_encoding.md R57, each with the operands it uses. -/

namespace Sys2Proof

/-- One command with the fields of its command word and the operands it uses (30_encoding.md R57).
Operands a command does not use are ignored (R55) and have no place here. The operands are fields of
the command's transaction, not state (10_state.md R22). -/
inductive Instr where
  /-- NEW_CRC: bit order `CMD.BO`, polynomial `OPA` (40_crc_table.md R77). -/
  | newCrc (bo : BitOrder) (poly : Word)
  /-- RESET (41_crc_update.md R95). -/
  | reset
  /-- UPDATE_BYTE: the byte `CMD.BYTE` (R92). -/
  | updateByte (b : Byte)
  /-- UPDATE_REPEAT: the byte `CMD.BYTE`, the count `OPA` (R93). -/
  | updateRepeat (b : Byte) (n : Word)
  /-- UPDATE: buffer present `CMD.P`, the buffer `BUF` (R94). -/
  | update (p : Bool) (buf : List Byte)
  /-- CHECKSUM_STREAM: source present `CMD.P`, sink present `CMD.S` (R97). -/
  | checksumStream (p sk : Bool)
  /-- READ_CRC (R96). -/
  | readCrc
  /-- READ_COUNT (R104). -/
  | readCount
  /-- READ_TABLE: the index `OPA` (40_crc_table.md R78). -/
  | readTable (index : Word)
  /-- COMBINE: `crc_a` in `OPA`, `crc_b` in `OPB`, `len_b` in `OPC`, `len_a` in `OPD`
  (42_crc_combine.md R117). -/
  | combine (crcA crcB lenB lenA : Word)
  /-- ADLER32: the seed `OPA`, buffer present `CMD.P`, the buffer `BUF` (43_adler32.md R132). -/
  | adler32 (seed : Word) (p : Bool) (buf : List Byte)
  deriving DecidableEq, Repr

end Sys2Proof
end

