-- ==== Sys2Proof/WellFormed.lean ====
section
/-! DEFINITION. Which terms of `Instr` are commands in canonical form. -/

namespace Sys2Proof

/-- An absent buffer carries no bytes. With `P = 0` the transaction's `BUF` is ignored even if it is
non-empty (30_encoding.md R64), so one command has one term. -/
def bufferOk (p : Bool) (buf : List Byte) : Bool := p || buf.isEmpty

/-- The well-formed commands: the widths of the fields are in their types, and an absent buffer is
empty. Every operand value is legal in a command (READ_TABLE with an index of 256 or more is a
command that completes with ILLEGAL_OPERAND, 60_exceptions.md R142). -/
def Instr.wellFormed : Instr → Bool
  | .newCrc _ _ => true
  | .reset => true
  | .updateByte _ => true
  | .updateRepeat _ _ => true
  | .update p buf => bufferOk p buf
  | .checksumStream _ _ => true
  | .readCrc => true
  | .readCount => true
  | .readTable _ => true
  | .combine _ _ _ _ => true
  | .adler32 _ p buf => bufferOk p buf

end Sys2Proof
end

