-- ==== Sys2Proof/Decode.lean ====
section
/-! DEFINITION. The command transaction, the encoding table, the decoder and the encoder
(30_encoding.md R55 to R65). -/

namespace Sys2Proof

/-- The command transaction (30_encoding.md R55). `buf` is meaningful only when the command uses it
and `CMD.P = 1`. -/
structure Transaction where
  cmd : Word
  opa : Word := 0#32
  opb : Word := 0#32
  opc : Word := 0#32
  opd : Word := 0#32
  buf : List Byte := []
  deriving DecidableEq, Repr

/-- The eleven mnemonics of 30_encoding.md R57. -/
inductive Mnemonic where
  | newCrc | reset | updateByte | updateRepeat | update | checksumStream
  | readCrc | readCount | readTable | combine | adler32
  deriving DecidableEq, Repr

/-- One row of the table of 30_encoding.md R58. -/
structure Row where
  name : Mnemonic
  mask : Word
  value : Word
  deriving DecidableEq, Repr

/-- Why a word is `Illegal` (30_encoding.md R59): a reserved opcode (R60), or a legal opcode with a 1
outside its free bits (R61). -/
inductive Illegal where
  | reservedOpcode
  | forbiddenBit
  deriving DecidableEq, Repr

/-- The table of masks and match values (30_encoding.md R58). -/
def rows : List Row :=
  [ ⟨.newCrc, 0xFFFBFFFF#32, 0x00000001#32⟩,
    ⟨.reset, 0xFFFFFFFF#32, 0x00000002#32⟩,
    ⟨.updateByte, 0xFFFF00FF#32, 0x00000003#32⟩,
    ⟨.updateRepeat, 0xFFFF00FF#32, 0x00000004#32⟩,
    ⟨.update, 0xFFFEFFFF#32, 0x00000005#32⟩,
    ⟨.checksumStream, 0xFFFCFFFF#32, 0x00000006#32⟩,
    ⟨.readCrc, 0xFFFFFFFF#32, 0x00000007#32⟩,
    ⟨.readCount, 0xFFFFFFFF#32, 0x00000008#32⟩,
    ⟨.readTable, 0xFFFFFFFF#32, 0x00000009#32⟩,
    ⟨.combine, 0xFFFFFFFF#32, 0x0000000A#32⟩,
    ⟨.adler32, 0xFFFEFFFF#32, 0x0000000B#32⟩ ]

/-- `OP`, bits 3:0 of the command word (R56). -/
def opField (cmd : Word) : BitVec 4 := cmd.extractLsb' 0 4

/-- `BYTE`, bits 15:8 (R56, R63). -/
def byteField (cmd : Word) : Byte := cmd.extractLsb' 8 8

/-- `P`, bit 16 (R56). -/
def pField (cmd : Word) : Bool := cmd.getLsbD 16

/-- `S`, bit 17 (R56). -/
def sField (cmd : Word) : Bool := cmd.getLsbD 17

/-- `BO`, bit 18: 0 = Normal, 1 = Reflected (R56). -/
def boField (cmd : Word) : BitOrder := if cmd.getLsbD 18 then .reflected else .normal

/-- A word matches a row when `(CMD & mask) = match` (R58). -/
def Row.matches (r : Row) (cmd : Word) : Bool := cmd &&& r.mask == r.value

/-- The reserved opcodes (R60). -/
def reservedOp (op : BitVec 4) : Bool :=
  op == 0x0#4 || op == 0xC#4 || op == 0xD#4 || op == 0xE#4 || op == 0xF#4

/-- The buffer operand: ignored when `P = 0`, even if it is non-empty (R64). -/
def bufOperand (t : Transaction) : List Byte := if pField t.cmd then t.buf else []

/-- The command a row stands for, with its fields and operands (R57, R59, R63). -/
def assemble (m : Mnemonic) (t : Transaction) : Instr :=
  match m with
  | .newCrc => .newCrc (boField t.cmd) t.opa
  | .reset => .reset
  | .updateByte => .updateByte (byteField t.cmd)
  | .updateRepeat => .updateRepeat (byteField t.cmd) t.opa
  | .update => .update (pField t.cmd) (bufOperand t)
  | .checksumStream => .checksumStream (pField t.cmd) (sField t.cmd)
  | .readCrc => .readCrc
  | .readCount => .readCount
  | .readTable => .readTable t.opa
  | .combine => .combine t.opa t.opb t.opc t.opd
  | .adler32 => .adler32 t.opa (pField t.cmd) (bufOperand t)

/-- `decode`, total on every word (30_encoding.md R59): the first row that matches, or `Illegal`. -/
def decode (t : Transaction) : Except Illegal Instr :=
  match rows.find? (·.matches t.cmd) with
  | some r => .ok (assemble r.name t)
  | none => .error (if reservedOp (opField t.cmd) then .reservedOpcode else .forbiddenBit)

/-- `BO` in its place, bit 18 (R56). -/
def boBits : BitOrder → Word
  | .normal => 0x00000000#32
  | .reflected => 0x00040000#32

/-- `BYTE` in its place, bits 15:8 (R56). -/
def byteBits (b : Byte) : Word := b.setWidth 32 <<< 8

/-- `P` in its place, bit 16 (R56). -/
def pBits (p : Bool) : Word := if p then 0x00010000#32 else 0x00000000#32

/-- `S` in its place, bit 17 (R56). -/
def sBits (sk : Bool) : Word := if sk then 0x00020000#32 else 0x00000000#32

/-- The transaction of a command (30_encoding.md R57, R58, R66); the operands it does not use are 0. -/
def encode : Instr → Transaction
  | .newCrc bo poly => { cmd := 0x00000001#32 ||| boBits bo, opa := poly }
  | .reset => { cmd := 0x00000002#32 }
  | .updateByte b => { cmd := 0x00000003#32 ||| byteBits b }
  | .updateRepeat b n => { cmd := 0x00000004#32 ||| byteBits b, opa := n }
  | .update p buf => { cmd := 0x00000005#32 ||| pBits p, buf := buf }
  | .checksumStream p sk => { cmd := 0x00000006#32 ||| pBits p ||| sBits sk }
  | .readCrc => { cmd := 0x00000007#32 }
  | .readCount => { cmd := 0x00000008#32 }
  | .readTable index => { cmd := 0x00000009#32, opa := index }
  | .combine crcA crcB lenB lenA =>
    { cmd := 0x0000000A#32, opa := crcA, opb := crcB, opc := lenB, opd := lenA }
  | .adler32 seed p buf => { cmd := 0x0000000B#32 ||| pBits p, opa := seed, buf := buf }

/-- The row a command belongs to (R57, R58). -/
def Instr.mnemonic : Instr → Mnemonic
  | .newCrc _ _ => .newCrc
  | .reset => .reset
  | .updateByte _ => .updateByte
  | .updateRepeat _ _ => .updateRepeat
  | .update _ _ => .update
  | .checksumStream _ _ => .checksumStream
  | .readCrc => .readCrc
  | .readCount => .readCount
  | .readTable _ => .readTable
  | .combine _ _ _ _ => .combine
  | .adler32 _ _ _ => .adler32

/-- The transaction whose bits are `w`: the command word in bits 31:0, then `OPA` to `OPD`, 32 bits
each; the bits from `nbits` up are 0 and the buffer is empty. -/
def transactionOfBits (nbits w : Nat) : Transaction :=
  let v := w % 2 ^ nbits
  { cmd := BitVec.ofNat 32 v
    opa := BitVec.ofNat 32 (v >>> 32)
    opb := BitVec.ofNat 32 (v >>> 64)
    opc := BitVec.ofNat 32 (v >>> 96)
    opd := BitVec.ofNat 32 (v >>> 128) }

/-- The command the decoder reads from an opcode-table word. -/
def decodeTableWord (nbits w : Nat) : Option Instr :=
  match decode (transactionOfBits nbits w) with
  | .ok i => some i
  | .error _ => none

end Sys2Proof
end

