-- ==== Sys2Proof/Machine/State.lean ====
section
/-! DEFINITION. The state of one CORE instance (10_state.md R23), what the host sends it and what it
sends the host, the reasons a step can stop, and the state after hardware reset (R155). -/

namespace Sys2Proof.Machine

/-- `STRM`, the loop state of CHECKSUM_STREAM (10_state.md R33). -/
inductive Strm where
  /-- No stream is in progress. -/
  | idle
  /-- A `SrcRead(CHUNK_SIZE)` is outstanding; `sk` records whether a sink is present. -/
  | awaitRead (sk : Bool)
  /-- A `SinkWrite(chunk)` is outstanding; the sink is present (`sink = 1`). -/
  | awaitWrite (chunk : List Byte)
  deriving DecidableEq, Repr

/-- The host's answer to a `SrcRead` (20_memory.md R45); an empty `data` is the end of the stream. -/
inductive SourceAnswer where
  | data (d : List Byte)
  | fail (e : Config.IoErr)
  deriving DecidableEq, Repr

/-- The host's answer to a `SinkWrite` (20_memory.md R45). -/
inductive SinkAnswer where
  | ok
  | fail (e : Config.IoErr)
  deriving DecidableEq, Repr

/-- One thing the host does to the instance. -/
inductive Input where
  /-- It issues a command (30_encoding.md R55). -/
  | command (t : Transaction)
  /-- It answers a source read (20_memory.md R45). -/
  | sourceAnswer (a : SourceAnswer)
  /-- It answers a sink write (20_memory.md R45). -/
  | sinkAnswer (a : SinkAnswer)
  /-- It reads STATUS (10_state.md R30). -/
  | readStatus
  /-- It reads RESULT (10_state.md R31). -/
  | readResult
  /-- The platform's reset line (70_reset_and_hazards.md R155). -/
  | hardwareReset
  deriving DecidableEq, Repr

/-- One thing the instance sends the host. -/
inductive Output where
  /-- The request `SrcRead(n)` (20_memory.md R45). -/
  | srcRead (n : Nat)
  /-- The request `SinkWrite(d)` (20_memory.md R45). -/
  | sinkWrite (d : List Byte)
  /-- A command has completed: STATUS, the RESULT it wrote if it wrote one (30_encoding.md R55), and
  the I/O error token it passes on if it ended with one (10_state.md R32). -/
  | completed (status : Word) (result : Option DWord) (ioerr : Option Config.IoErr)
  /-- The word a STATUS read gives (10_state.md R30). -/
  | statusValue (w : Word)
  /-- The value a RESULT read gives (10_state.md R31). -/
  | resultValue (v : DWord)
  /-- The answer to a RESULT read before any command has written it: the fault of 10_state.md R31, a
  signal in place of a value (93_implementation_defined.md section 1, U12). The instance goes on
  (log entry 21). -/
  | resultUnwritten
  deriving DecidableEq, Repr

/-- Why the machine stops with a fault: there is no reason. CORE has no traps (60_exceptions.md R135):
an error of a command is a completion with a code, and the fault of a host read of an unwritten RESULT
(10_state.md R31) is the answer to that read, `Output.resultUnwritten`. -/
inductive Fault
  deriving DecidableEq, Repr

/-- Why an input has no step. -/
inductive Refusal where
  /-- Raised by exec's arms for an instruction without a meaning; no arm uses it. Safe. -/
  | notModelled (mnemonic : String)
  /-- Raised by a command given while `STATUS.BUSY = 1` (70_reset_and_hazards.md R160): the spec
  gives it no step. Safe. -/
  | commandWhileBusy
  /-- Raised by a source answer longer than `CHUNK_SIZE` (41_crc_update.md R99,
  70_reset_and_hazards.md R161): the spec gives it no step. Safe. -/
  | oversizeAnswer
  /-- Raised by a host answer to a request that is not outstanding (70_reset_and_hazards.md R161:
  "answer every request once"): the spec gives it no step. Safe. -/
  | unsolicitedAnswer
  deriving DecidableEq, Repr

/-- The state of one CORE instance. -/
structure State where
  /-- `CFG_VALID`: a NEW_CRC has completed since hardware reset (10_state.md R24). -/
  cfgValid : Bool
  /-- `POLY` (R25). -/
  poly : Word
  /-- `BITORD` (R26). -/
  bitord : BitOrder
  /-- `TABLE[0..255]` (R27). -/
  table : Vector Word 256
  /-- `REG`, the raw accumulator (R28). -/
  reg : Word
  /-- `TBR`, the byte counter (R29). -/
  tbr : DWord
  /-- `STATUS.BUSY` (R30). -/
  busy : Bool
  /-- `STATUS.ERR` (R30, 60_exceptions.md R136). -/
  err : BitVec 4
  /-- `RESULT` (R31); its value means something once `resultWritten`. -/
  result : DWord
  /-- Whether RESULT has been written since hardware reset (R31, 70_reset_and_hazards.md R155). -/
  resultWritten : Bool
  /-- `IOERR` (R32). -/
  ioerr : Option Config.IoErr
  /-- `STRM` (R33). -/
  strm : Strm
  /-- `CHUNK_SIZE`, a model argument of any value >= 1 (00_scope.md R6); no step changes it. -/
  chunkSize : Nat
  /-- The model's own: what the host has sent and CORE has not yet taken, oldest first. -/
  inbox : List Input
  /-- The model's own: what CORE has sent the host, oldest first. -/
  outbox : List Output
  /-- The model's own: which sequence of free values the instance draws from, one for each instance
  of a platform (00_scope.md R9, 60_exceptions.md R151); no step changes it. -/
  drawSource : Nat
  /-- The model's own: how many times a free value has been drawn (00_scope.md R9). -/
  draws : Nat
  deriving DecidableEq, Repr

/-- The state right after hardware reset (70_reset_and_hazards.md R155). The fields R155 calls UNSPEC
(`poly`, `bitord`, `table`, `reg`, `tbr`) and the value behind an unwritten RESULT are 0: DESIGN
CHOICE, unsafe (log entries 4 and 5). CHUNK_SIZE has the spec's default (log entry 8). -/
def State.reset : State where
  cfgValid := false
  poly := 0#32
  bitord := .normal
  table := Vector.replicate 256 0#32
  reg := 0#32
  tbr := 0#64
  busy := false
  err := 0#4
  result := 0#64
  resultWritten := false
  ioerr := none
  strm := .idle
  chunkSize := Config.chunkSizeDefault
  inbox := []
  outbox := []
  drawSource := 0
  draws := 0

end Sys2Proof.Machine
end

