-- ==== Sys2Proof/Machine/Flags.lean ====
section
/-! DEFINITION. CORE has no condition flags (10_state.md R36): its only status bits are those of the
STATUS word (R30), with the error codes of 60_exceptions.md R136. -/

namespace Sys2Proof.Machine

/-- The outcomes of a command (60_exceptions.md R136). -/
inductive Err where
  | ok | nullInput | ioRead | ioWrite | illegalCommand | notConfigured | illegalOperand
  deriving DecidableEq, Repr

/-- The code of an outcome (60_exceptions.md R136). -/
def errCode : Err → BitVec 4
  | .ok => 0#4
  | .nullInput => 1#4
  | .ioRead => 2#4
  | .ioWrite => 3#4
  | .illegalCommand => 4#4
  | .notConfigured => 5#4
  | .illegalOperand => 6#4

/-- The STATUS word: BUSY in bit 0, ERR in bits 4:1, bits 31:5 read as 0 (10_state.md R30). -/
def statusWord (s : State) : Word := 0#27 ++ s.err ++ BitVec.ofBool s.busy

end Sys2Proof.Machine
end

