-- ==== Sys2Proof/Machine/Ops.lean ====
section
/-! DEFINITION. The operations every command shares: sending the host an output, completing a
command, raising an error, ending a stream on an I/O error, and the checks a command makes first. -/

namespace Sys2Proof.Machine

/-- Send the host an output. -/
def emit (o : Output) (s : State) : State := { s with outbox := s.outbox ++ [o] }

/-- `complete()` (00_scope.md R9): the command ends with success; RESULT is not written. -/
def complete (s : State) : State :=
  let s' := { s with err := errCode .ok }
  emit (.completed (statusWord s') none none) s'

/-- `complete(result)` (00_scope.md R9): the command ends with success and writes RESULT. -/
def completeWith (v : DWord) (s : State) : State :=
  let s' := { s with err := errCode .ok, result := v, resultWritten := true }
  emit (.completed (statusWord s') (some v) none) s'

/-- `raise E` for every error other than IO_READ and IO_WRITE (60_exceptions.md R139): ERR takes the
code, no other register changes, the command completes. CORE has no other exception entry (R135). -/
def raise (e : Err) (s : State) : State :=
  let s' := { s with err := errCode e }
  emit (.completed (statusWord s') none none) s'

/-- A stream ends with an I/O error (41_crc_update.md R102, 60_exceptions.md R138): the token is
recorded unchanged, REG and TBR are free values, RESULT is not written. DESIGN CHOICE: the draw of R9 is
a function of the instance's own source and its count of draws, so that instances of a platform draw
independently, while two runs compared at one source and one count draw alike; unsafe for a claim that
compares such runs (log entries 7 and 10). -/
def ioError (e : Err) (token : Config.IoErr) (s : State) : State :=
  let s' := { s with
    ioerr := some token
    reg := Config.drawReg s.drawSource s.draws
    tbr := Config.drawTbr s.drawSource s.draws
    strm := .idle
    busy := false
    err := errCode e
    draws := s.draws + 1 }
  emit (.completed (statusWord s') none (some token)) s'

/-- A command is taken only while `STATUS.BUSY = 0`; one given while BUSY has no step
(70_reset_and_hazards.md R160). -/
def accept (s : State) (k : Host.Outcome State Fault Refusal) : Host.Outcome State Fault Refusal :=
  if s.busy then .refused .commandWhileBusy else k

/-- A CRC-unit command first requires `CFG_VALID = 1` (60_exceptions.md R141). -/
def configured (s : State) (k : Host.Outcome State Fault Refusal) :
    Host.Outcome State Fault Refusal :=
  if s.cfgValid then k else .next (raise .notConfigured s)

/-- The state of R155 with the UNSPEC fields drawn (log entries 6 and 7). What the host has sent and
received, CHUNK_SIZE, the source and the count of draws are not the instance's registers and stay. -/
def hardwareReset (s : State) : State :=
  { State.reset with
    poly := Config.unspecPoly s.drawSource s.draws
    bitord := Config.unspecBitord s.drawSource s.draws
    table := Config.unspecTable s.drawSource s.draws
    reg := Config.unspecReg s.drawSource s.draws
    tbr := Config.unspecTbr s.drawSource s.draws
    chunkSize := s.chunkSize
    inbox := s.inbox
    outbox := s.outbox
    drawSource := s.drawSource
    draws := s.draws + 1 }

end Sys2Proof.Machine
end

