-- ==== Sys2Proof/Machine/Operands.lean ====
section
/-! DEFINITION. Operand forms (30_encoding.md R63, R64). -/

namespace Sys2Proof.Machine

/-- A required buffer or source: absent (`P = 0`), the command ends with NULL_INPUT before any state
changes (60_exceptions.md R137). -/
def present (p : Bool) (s : State) (k : Host.Outcome State Fault Refusal) :
    Host.Outcome State Fault Refusal :=
  if p then k else .next (raise .nullInput s)

/-- A count or a length: the operand read as an unsigned number (30_encoding.md R63). -/
def countOperand (n : Word) : Nat := n.toNat

/-- READ_TABLE's index: legal only when below 256 (30_encoding.md R63); otherwise the command ends
with ILLEGAL_OPERAND (60_exceptions.md R142). -/
def withIndex (index : Word) (s : State) (k : Byte → Host.Outcome State Fault Refusal) :
    Host.Outcome State Fault Refusal :=
  if index.toNat < 256 then k (index.setWidth 8) else .next (raise .illegalOperand s)

/-- `zext_64` (00_scope.md R9). -/
def zext64 (v : Word) : DWord := v.setWidth 64

end Sys2Proof.Machine
end

