-- ==== Sys2Proof/Machine/Adler.lean ====
section
/-! DEFINITION. The Adler-32 function and ADLER32 (43_adler32.md). -/

namespace Sys2Proof.Machine

/-- One byte enters the two sums, without reduction (R127). The sums are exact numbers, an unsigned
accumulator of at least 32 bits (R125); R131 says no sum passes 2^32 - 1 (log entry 17). -/
def adlerStep (acc : Nat × Nat) (b : Byte) : Nat × Nat :=
  let s1 := acc.1 + b.toNat
  (s1, acc.2 + s1)

/-- One sub-block: its bytes in order (R127). -/
def adlerBlock (acc : Nat × Nat) (d : List Byte) : Nat × Nat := d.foldl adlerStep acc

/-- Both sums reduced modulo 65521 (R127). -/
def adlerReduce (acc : Nat × Nat) : Nat × Nat :=
  (acc.1 % Config.adlerBase, acc.2 % Config.adlerBase)

/-- `adler_acc`: sub-blocks of at most NMAX bytes, a reduction after each (R127), at most `fuel`
sub-blocks. -/
def adlerLoop : Nat → Nat × Nat → List Byte → Nat × Nat
  | 0, acc, _ => acc
  | fuel + 1, acc, d =>
    if d.isEmpty then acc
    else adlerLoop fuel (adlerReduce (adlerBlock acc (d.take Config.nmax))) (d.drop Config.nmax)

/-- `adler_acc` on a whole buffer: each sub-block takes at least one byte, so `len(B)` rounds are
enough (R127). -/
def adlerAcc (acc : Nat × Nat) (d : List Byte) : Nat × Nat := adlerLoop d.length acc d

/-- The two sub-sums of a seed, unreduced (R125). -/
def adlerSplit (seed : Word) : Nat × Nat :=
  ((seed &&& 0xFFFF#32).toNat, ((seed >>> 16) &&& 0xFFFF#32).toNat)

/-- `(s2 << 16) | s1` (R128). -/
def adlerJoin (acc : Nat × Nat) : Word :=
  (BitVec.ofNat 32 acc.2 <<< 16) ||| BitVec.ofNat 32 acc.1

/-- `adler32(seed, B)` for a present buffer (R128). -/
def adler32 (seed : Word) (d : List Byte) : Word := adlerJoin (adlerAcc (adlerSplit seed) d)

/-- The value of ADLER32: 1 for an absent buffer whatever the seed (R126). -/
def adlerValue (seed : Word) (p : Bool) (buf : List Byte) : Word :=
  if p then adler32 seed buf else 1#32

/-- ADLER32 (R132). `CFG_VALID` is not consulted. -/
def execAdler32 (seed : Word) (p : Bool) (buf : List Byte) (s : State) :
    Host.Outcome State Fault Refusal :=
  accept s <| .next <| completeWith (zext64 (adlerValue seed p buf)) s

end Sys2Proof.Machine
end

