-- ==== Sys2Proof/Machine/Table.lean ====
section
/-! DEFINITION. Bit reversal, the division circuit, the table, NEW_CRC and READ_TABLE
(40_crc_table.md). -/

namespace Sys2Proof.Machine

/-- `rev32` by the five masks of 40_crc_table.md R70. -/
def rev32 (x : Word) : Word :=
  let x := ((x >>> 1) &&& 0x55555555#32) ||| ((x &&& 0x55555555#32) <<< 1)
  let x := ((x >>> 2) &&& 0x33333333#32) ||| ((x &&& 0x33333333#32) <<< 2)
  let x := ((x >>> 4) &&& 0x0F0F0F0F#32) ||| ((x &&& 0x0F0F0F0F#32) <<< 4)
  let x := ((x >>> 8) &&& 0x00FF00FF#32) ||| ((x &&& 0x00FF00FF#32) <<< 8)
  ((x >>> 16) &&& 0x0000FFFF#32) ||| ((x &&& 0x0000FFFF#32) <<< 16)

/-- `rev8(i) = rev32(zext_32(i)) >> 24` (R71). -/
def rev8 (i : Byte) : Byte := (rev32 (i.setWidth 32) >>> 24).setWidth 8

/-- One step of the right-shift division circuit (R72; the `s` of 41_crc_update.md R88). -/
def divStep (poly c : Word) : Word :=
  if c.getLsbD 0 then (c >>> 1) ^^^ poly else c >>> 1

/-- `div8`: eight steps on one byte value (R72). -/
def div8 (i : Byte) (poly : Word) : Word := (divStep poly)^[8] (i.setWidth 32)

/-- The entry of index `j` (R73). In Reflected mode R73 stores `rev32(div8(i, P))` at `rev8(i)`;
`rev8` is its own inverse, so the entry at `j` comes from `i = rev8(j)` (log entry 18). -/
def tableEntry (poly : Word) (bo : BitOrder) (j : Byte) : Word :=
  match bo with
  | .normal => div8 j poly
  | .reflected => rev32 (div8 (rev8 j) poly)

/-- `build_table` (R73). -/
def buildTable (poly : Word) (bo : BitOrder) : Vector Word 256 :=
  Vector.ofFn fun j => tableEntry poly bo (BitVec.ofFin j)

/-- The entry of a table at an 8-bit index (R79). -/
def lookup (T : Vector Word 256) (i : Byte) : Word := T[i.toNat]'i.isLt

/-- NEW_CRC (40_crc_table.md R77). -/
def execNewCrc (bo : BitOrder) (poly : Word) (s : State) : Host.Outcome State Fault Refusal :=
  accept s <| .next <| complete
    { s with
      poly := poly
      bitord := bo
      table := buildTable poly bo
      reg := Config.regInit
      tbr := 0#64
      cfgValid := true }

/-- READ_TABLE (40_crc_table.md R78). -/
def execReadTable (index : Word) (s : State) : Host.Outcome State Fault Refusal :=
  accept s <| configured s <| withIndex index s fun i =>
    .next (completeWith (zext64 (lookup s.table i)) s)

end Sys2Proof.Machine
end

