-- ==== Sys2Proof/Machine/Update.lean ====
section
/-! DEFINITION. The update datapaths, and UPDATE_BYTE, UPDATE_REPEAT, UPDATE, RESET, READ_CRC and
READ_COUNT (41_crc_update.md). -/

namespace Sys2Proof.Machine

/-- The table index of one byte (40_crc_table.md R79). -/
def tableIndex (bo : BitOrder) (r : Word) (b : Byte) : Byte :=
  match bo with
  | .normal => (r &&& 0xFF#32).setWidth 8 ^^^ b
  | .reflected => (r >>> 24).setWidth 8 ^^^ b

/-- The register moved by one byte position (41_crc_update.md R86, R87). -/
def shiftReg (bo : BitOrder) (r : Word) : Word :=
  match bo with
  | .normal => r >>> 8
  | .reflected => r <<< 8

/-- `update_byte` (R85). -/
def updateByte (T : Vector Word 256) (bo : BitOrder) (r : Word) (b : Byte) : Word :=
  shiftReg bo r ^^^ lookup T (tableIndex bo r b)

/-- `update_block`: `update_byte` folded from index 0 upward (R90). -/
def updateBlock (T : Vector Word 256) (bo : BitOrder) (r : Word) (d : List Byte) : Word :=
  d.foldl (updateByte T bo) r

/-- `finalize` (R91). -/
def finalize (r : Word) : Word := ~~~r

/-- `absorb(d)`: a block enters REG and is counted in TBR (R94, R99). -/
def absorb (d : List Byte) (s : State) : State :=
  { s with
    reg := updateBlock s.table s.bitord s.reg d
    tbr := s.tbr + BitVec.ofNat 64 d.length }

/-- UPDATE_BYTE (R92). -/
def execUpdateByte (b : Byte) (s : State) : Host.Outcome State Fault Refusal :=
  accept s <| configured s <| .next <| complete
    { s with reg := updateByte s.table s.bitord s.reg b }

/-- UPDATE_REPEAT (R93). -/
def execUpdateRepeat (b : Byte) (n : Word) (s : State) : Host.Outcome State Fault Refusal :=
  accept s <| configured s <| .next <| complete
    { s with reg := (fun r => updateByte s.table s.bitord r b)^[countOperand n] s.reg }

/-- UPDATE (R94). -/
def execUpdate (p : Bool) (buf : List Byte) (s : State) : Host.Outcome State Fault Refusal :=
  accept s <| configured s <| present p s <| .next <| complete <| absorb buf s

/-- RESET (R95). -/
def execReset (s : State) : Host.Outcome State Fault Refusal :=
  accept s <| configured s <| .next <| complete { s with reg := Config.regInit, tbr := 0#64 }

/-- READ_CRC (R96). -/
def execReadCrc (s : State) : Host.Outcome State Fault Refusal :=
  accept s <| configured s <| .next <| completeWith (zext64 (finalize s.reg)) s

/-- READ_COUNT (R104). -/
def execReadCount (s : State) : Host.Outcome State Fault Refusal :=
  accept s <| configured s <| .next <| completeWith s.tbr s

end Sys2Proof.Machine
end

