-- ==== Sys2Proof/Machine/Combine.lean ====
section
/-! DEFINITION. The GF(2) operations and COMBINE (42_crc_combine.md). -/

namespace Sys2Proof.Machine

/-- A 32 x 32 matrix over GF(2), by columns: entry `i` is the image of `1 << i` (R110). -/
abbrev GfMatrix := Vector Word 32

/-- `Z`: the register advanced by one zero byte (R111). -/
def zeroByte (T : Vector Word 256) (bo : BitOrder) (r : Word) : Word := updateByte T bo r 0x00#8

/-- `M1`: the matrix of `Z` (R111). -/
def zeroMatrix (T : Vector Word 256) (bo : BitOrder) : GfMatrix :=
  Vector.ofFn fun i => zeroByte T bo (1#32 <<< i.val)

/-- `gf2_times`: the columns selected by the set bits of `v`, XORed (R113). -/
def gf2Times (M : GfMatrix) (v : Word) : Word :=
  (List.finRange 32).foldl (fun acc i => if v.getLsbD i.val then acc ^^^ M[i] else acc) 0#32

/-- `gf2_square` (R114). -/
def gf2Square (M : GfMatrix) : GfMatrix := Vector.ofFn fun i => gf2Times M M[i]

/-- The loop of `zeros` (R115), at most `fuel` rounds. -/
def zerosLoop : Nat → GfMatrix → Word → Word → Word
  | 0, _, v, _ => v
  | fuel + 1, M, v, n =>
    if n = 0#32 then v
    else
      let v' := if n.getLsbD 0 then gf2Times M v else v
      let n' := n >>> 1
      let M' := if n' = 0#32 then M else gf2Square M
      zerosLoop fuel M' v' n'

/-- `zeros(v, n)` by square-and-multiply (R115). A 32-bit count is 0 after 32 halvings, so 32 rounds
are all the loop makes (log entry 19). -/
def zeros (T : Vector Word 256) (bo : BitOrder) (v n : Word) : Word :=
  zerosLoop 32 (zeroMatrix T bo) v n

/-- The combined public checksum `c` of R117. -/
def combined (T : Vector Word 256) (bo : BitOrder) (crcA crcB lenB : Word) : Word :=
  if lenB = 0#32 then crcA else zeros T bo crcA lenB ^^^ crcB

/-- COMBINE (R117). `lenA` is read for nothing (R120). -/
def execCombine (crcA crcB lenB _lenA : Word) (s : State) : Host.Outcome State Fault Refusal :=
  let c := combined s.table s.bitord crcA crcB lenB
  accept s <| configured s <| .next <| completeWith (zext64 c) { s with reg := finalize c }

end Sys2Proof.Machine
end

