-- ==== Sys2Proof/Machine/Stream.lean ====
section
/-! DEFINITION. CHECKSUM_STREAM: its start and its transitions on the host's answers
(41_crc_update.md R97 to R102). -/

namespace Sys2Proof.Machine

/-- Issue `SrcRead(CHUNK_SIZE)` and wait for its answer (R98, R99, R100). -/
def requestRead (sk : Bool) (s : State) : State :=
  emit (.srcRead s.chunkSize) { s with strm := .awaitRead sk }

/-- Issue `SinkWrite(d)` and wait for its answer (R99). -/
def requestWrite (d : List Byte) (s : State) : State :=
  emit (.sinkWrite d) { s with strm := .awaitWrite d }

/-- CHECKSUM_STREAM starts (R98). ERR keeps its value until the command completes (log entry 16). -/
def execChecksumStream (p sk : Bool) (s : State) : Host.Outcome State Fault Refusal :=
  accept s <| configured s <| present p s <| .next <| requestRead sk
    { s with tbr := 0#64, busy := true }

/-- The stream ends on an empty read (R101). -/
def endStream (s : State) : State :=
  completeWith (zext64 (finalize s.reg)) { s with strm := .idle, busy := false }

/-- A source answer in `AwaitRead(sk)` (R99, R101, R102). An answer longer than CHUNK_SIZE has no
step (70_reset_and_hazards.md R161). -/
def answerRead (sk : Bool) (a : SourceAnswer) (s : State) : Host.Outcome State Fault Refusal :=
  match a with
  | .fail e => .next (ioError .ioRead e s)
  | .data d =>
    if s.chunkSize < d.length then .refused .oversizeAnswer
    else if d.isEmpty then .next (endStream s)
    else if sk then .next (requestWrite d s)
    else .next (requestRead false (absorb d s))

/-- A sink answer in `AwaitWrite(d)` (R100, R102). -/
def answerWrite (d : List Byte) (a : SinkAnswer) (s : State) : Host.Outcome State Fault Refusal :=
  match a with
  | .fail e => .next (ioError .ioWrite e s)
  | .ok => .next (requestRead true (absorb d s))

/-- The host answers a source read; only an outstanding one can be answered (R161). -/
def onSourceAnswer (a : SourceAnswer) (s : State) : Host.Outcome State Fault Refusal :=
  match s.strm with
  | .awaitRead sk => answerRead sk a s
  | .awaitWrite _ => .refused .unsolicitedAnswer
  | .idle => .refused .unsolicitedAnswer

/-- The host answers a sink write; only an outstanding one can be answered (R161). -/
def onSinkAnswer (a : SinkAnswer) (s : State) : Host.Outcome State Fault Refusal :=
  match s.strm with
  | .awaitWrite d => answerWrite d a s
  | .awaitRead _ => .refused .unsolicitedAnswer
  | .idle => .refused .unsolicitedAnswer

end Sys2Proof.Machine
end

