-- ==== Sys2Proof/Machine/Dispatch.lean ====
section
/-! DEFINITION. One arm per command (30_encoding.md R57). -/

namespace Sys2Proof.Machine

def exec (i : Instr) (s : State) : Host.Outcome State Fault Refusal :=
  match i with
  | .newCrc bo poly => Sys2Proof.Machine.execNewCrc bo poly s
  | .reset => Sys2Proof.Machine.execReset s
  | .updateByte b => Sys2Proof.Machine.execUpdateByte b s
  | .updateRepeat b n => Sys2Proof.Machine.execUpdateRepeat b n s
  | .update p buf => Sys2Proof.Machine.execUpdate p buf s
  | .checksumStream p sk => Sys2Proof.Machine.execChecksumStream p sk s
  | .readCrc => Sys2Proof.Machine.execReadCrc s
  | .readCount => Sys2Proof.Machine.execReadCount s
  | .readTable index => Sys2Proof.Machine.execReadTable index s
  | .combine crcA crcB lenB lenA => Sys2Proof.Machine.execCombine crcA crcB lenB lenA s
  | .adler32 seed p buf => Sys2Proof.Machine.execAdler32 seed p buf s

end Sys2Proof.Machine
end

