-- ==== Sys2Proof/Machine/Port.lean ====
section
/-! DEFINITION. What the instance does with each thing the host does to it. -/

namespace Sys2Proof.Machine

/-- The host issues a transaction: an `Illegal` word completes with ILLEGAL_COMMAND and changes no
other state (30_encoding.md R59, 60_exceptions.md R140); any other runs its command. -/
def issue (t : Transaction) (s : State) : Host.Outcome State Fault Refusal :=
  match decode t with
  | .ok i => exec i s
  | .error _ => accept s <| .next (raise .illegalCommand s)

/-- The host reads STATUS: allowed at any time (10_state.md R30, 70_reset_and_hazards.md R160). -/
def onReadStatus (s : State) : State := emit (.statusValue (statusWord s)) s

/-- The host reads RESULT. Before any command has written it the read faults: it is answered with a
signal in place of a value (10_state.md R31, 93_implementation_defined.md U12), and no register
changes (log entry 21). -/
def onReadResult (s : State) : State :=
  emit (if s.resultWritten then .resultValue s.result else .resultUnwritten) s

/-- One host input takes effect. -/
def deliver (e : Input) (s : State) : Host.Outcome State Fault Refusal :=
  match e with
  | .command t => issue t s
  | .sourceAnswer a => onSourceAnswer a s
  | .sinkAnswer a => onSinkAnswer a s
  | .readStatus => .next (onReadStatus s)
  | .readResult => .next (onReadResult s)
  | .hardwareReset => .next (hardwareReset s)

/-- CORE takes the oldest input. With none pending it waits, and nothing changes: no command is in
hand, or an outstanding request has no answer yet (70_reset_and_hazards.md R161). -/
def takeInput (s : State) : Host.Outcome State Fault Refusal :=
  match s.inbox with
  | [] => .next s
  | e :: rest => deliver e { s with inbox := rest }

/-- The host's next act is the command whose bits are `w`. -/
def offerCommand (nbits w : Nat) (s : State) : State :=
  { s with inbox := .command (transactionOfBits nbits w) :: s.inbox }

end Sys2Proof.Machine
end

