-- ==== Sys2Proof/Machine/Step.lean ====
section
/-! DEFINITION. One step of a CORE instance (00_scope.md R5): the oldest host input takes effect. -/

namespace Sys2Proof.Machine

/-- One architectural step. -/
def step (s : State) : Host.Outcome State Fault Refusal := takeInput s

/-- `s` with the command whose bits are `w` as the next thing the host gives it: CORE fetches
nothing (20_memory.md R52), a command comes from the host. -/
def State.withFetchWord (s : State) (nbits w : Nat) : State := offerCommand nbits w s

end Sys2Proof.Machine
end

