-- ==== Sys2Proof/Machine/Platform.lean ====
section
/-! DEFINITION. A platform of `N_INST` independent CORE instances (60_exceptions.md R151). -/

namespace Sys2Proof.Machine

/-- The instances of a platform; `n` is the model argument `N_INST` (00_scope.md R6). -/
structure Platform (n : Nat) where
  cores : Vector State n
  deriving DecidableEq, Repr

/-- Every instance starts from hardware reset (R151), and draws the fields R155 calls UNSPEC and every
later free value from its own source, so that nothing ties one instance's draws to another's (R9,
log entry 10). -/
def platformReset (n : Nat) : Platform n :=
  ⟨Vector.ofFn fun k => hardwareReset { State.reset with drawSource := k.val }⟩

/-- Instance `k` makes a step: it has its own state, and no state is shared (R151). -/
def stepInstance (n : Nat) (k : Fin n) (p : Platform n) :
    Host.Outcome (Platform n) Fault Refusal :=
  match step p.cores[k] with
  | .next t => .next ⟨p.cores.set k t⟩
  | .fault r => .fault r
  | .refused r => .refused r

end Sys2Proof.Machine
end

