-- ==== Sys2Proof/Safety.lean ====
section
/-! DEFINITION. The invariant of an instance and the host's contract. -/

namespace Sys2Proof.Machine

/-- What holds of every state a run reaches. -/
structure StateInv (s : State) : Prop where
  /-- Whenever CFG_VALID = 1, TABLE = build_table(POLY, BITORD) (10_state.md R35). -/
  table : s.cfgValid = true → s.table = buildTable s.poly s.bitord
  /-- BUSY is 1 exactly while a stream is in progress (R33). -/
  busy : s.busy = true ↔ s.strm ≠ .idle
  /-- Codes 7 to 15 are never produced (R30, 60_exceptions.md R136). -/
  err : s.err.toNat ≤ 6
  /-- A chunk waiting for the sink is non-empty and at most CHUNK_SIZE bytes (R33). -/
  chunk : ∀ d, s.strm = .awaitWrite d → d ≠ [] ∧ d.length ≤ s.chunkSize
  /-- A stream runs only on a constructed engine (41_crc_update.md R98). -/
  engine : s.busy = true → s.cfgValid = true
  /-- CHUNK_SIZE >= 1 (00_scope.md R6). -/
  chunkSize : 1 ≤ s.chunkSize

/-- What the host may send next (70_reset_and_hazards.md R159 to R161): a command only while not
BUSY, an answer only to the outstanding request, and no more bytes than asked for. A read of STATUS or
RESULT and a hardware reset are no commands and are always taken (log entry 11). -/
def Contract (e : Input) (s : State) : Prop :=
  match e with
  | .command _ => s.busy = false
  | .sourceAnswer (.data d) => (∃ sk, s.strm = .awaitRead sk) ∧ d.length ≤ s.chunkSize
  | .sourceAnswer (.fail _) => ∃ sk, s.strm = .awaitRead sk
  | .sinkAnswer _ => ∃ d, s.strm = .awaitWrite d
  | .readStatus => True
  | .readResult => True
  | .hardwareReset => True

/-- An engine is constructed and no stream is in progress: the state in which a CRC-unit command has
its own effect (60_exceptions.md R141, 70_reset_and_hazards.md R159). -/
def Ready (s : State) : Prop := s.busy = false ∧ s.cfgValid = true

/-- The commands that need a constructed engine: OP 0x2 to 0xA (60_exceptions.md R141). -/
def needsEngine : Instr → Bool
  | .newCrc _ _ => false
  | .reset => true
  | .updateByte _ => true
  | .updateRepeat _ _ => true
  | .update _ _ => true
  | .checksumStream _ _ => true
  | .readCrc => true
  | .readCount => true
  | .readTable _ => true
  | .combine _ _ _ _ => true
  | .adler32 _ _ _ => false

/-- A required buffer or source is absent (60_exceptions.md R137). -/
def inputAbsent : Instr → Bool
  | .newCrc _ _ => false
  | .reset => false
  | .updateByte _ => false
  | .updateRepeat _ _ => false
  | .update p _ => !p
  | .checksumStream p _ => !p
  | .readCrc => false
  | .readCount => false
  | .readTable _ => false
  | .combine _ _ _ _ => false
  | .adler32 _ _ _ => false

/-- READ_TABLE with an index of 256 or more (60_exceptions.md R142). -/
def operandIllegal : Instr → Bool
  | .newCrc _ _ => false
  | .reset => false
  | .updateByte _ => false
  | .updateRepeat _ _ => false
  | .update _ _ => false
  | .checksumStream _ _ => false
  | .readCrc => false
  | .readCount => false
  | .readTable index => 256 ≤ index.toNat
  | .combine _ _ _ _ => false
  | .adler32 _ _ _ => false

/-- The CRC of a byte sequence under a configuration (41_crc_update.md R91). -/
def crc (poly : Word) (bo : BitOrder) (m : List Byte) : Word :=
  finalize (updateBlock (buildTable poly bo) bo Config.regInit m)

/-- A state after a command has completed with an error other than an I/O error: ERR has the code,
the completion is reported, and nothing else has changed (60_exceptions.md R139). -/
def failedWith (code : BitVec 4) (s : State) : State :=
  { s with err := code, outbox := s.outbox ++ [.completed (code.setWidth 32 <<< 1) none none] }

/-- The host's answers to a stream that delivers the chunks `ds` and then ends; with a sink, each
write is answered `Ok` (20_memory.md R45, 41_crc_update.md R99 to R101). -/
def streamAnswers (sk : Bool) (ds : List (List Byte)) : List Input :=
  ds.flatMap (fun d => if sk then [.sourceAnswer (.data d), .sinkAnswer .ok]
    else [.sourceAnswer (.data d)]) ++ [.sourceAnswer (.data [])]

/-- A run: the host does the things of a list one after the other, each once the step before has taken
effect (70_reset_and_hazards.md R159); the run stops where an input has no step. -/
def runInputs : List Input → State → Host.Outcome State Fault Refusal
  | [], s => .next s
  | e :: es, s =>
    match step { s with inbox := [e] } with
    | .next t => runInputs es t
    | .fault r => .fault r
    | .refused r => .refused r

/-- The bytes of every sink write among some outputs, in order (20_memory.md R46). -/
def sinkBytes : List Output → List Byte
  | [] => []
  | .sinkWrite d :: rest => d ++ sinkBytes rest
  | .srcRead _ :: rest => sinkBytes rest
  | .completed _ _ _ :: rest => sinkBytes rest
  | .statusValue _ :: rest => sinkBytes rest
  | .resultValue _ :: rest => sinkBytes rest
  | .resultUnwritten :: rest => sinkBytes rest

end Sys2Proof.Machine
end

