-- ==== Sys2Proof/Certificates/Slice0/Obligations.lean ====
section
/-! DEFINITION. The statements about the model, from the numbered rules of spec/. -/

open Sys2Proof Sys2Proof.Machine

/-! ## Encoding -/

/-- 30_encoding.md R57, R58, R63: decoding the transaction of a well-formed command gives the command
back, with every operand at every value. -/
def Obligations.DecodeOfEncode : Prop :=
  ∀ i : Instr, i.wellFormed = true → decode (encode i) = .ok i

/-- 30_encoding.md R59: a decoded command is well formed, belongs to a row its word matches, and
encodes to the very command word it was decoded from: decoding drops no bit of the word. -/
def Obligations.DecodedWordIsTheEncodedWord : Prop :=
  ∀ (t : Transaction) (i : Instr), decode t = .ok i →
    i.wellFormed = true ∧ (encode i).cmd = t.cmd ∧
      ∃ r ∈ rows, r.name = i.mnemonic ∧ t.cmd &&& r.mask = r.value

/-- 30_encoding.md R58: the masks and match values, when a word matches a row, and at most one row
matches any word. -/
def Obligations.AtMostOneRowMatches : Prop :=
  rows.map (fun r => (r.name, r.mask, r.value)) =
    [ (.newCrc, 0xFFFBFFFF#32, 0x00000001#32), (.reset, 0xFFFFFFFF#32, 0x00000002#32),
      (.updateByte, 0xFFFF00FF#32, 0x00000003#32), (.updateRepeat, 0xFFFF00FF#32, 0x00000004#32),
      (.update, 0xFFFEFFFF#32, 0x00000005#32), (.checksumStream, 0xFFFCFFFF#32, 0x00000006#32),
      (.readCrc, 0xFFFFFFFF#32, 0x00000007#32), (.readCount, 0xFFFFFFFF#32, 0x00000008#32),
      (.readTable, 0xFFFFFFFF#32, 0x00000009#32), (.combine, 0xFFFFFFFF#32, 0x0000000A#32),
      (.adler32, 0xFFFEFFFF#32, 0x0000000B#32) ] ∧
  (∀ (w : Word), ∀ r ∈ rows, r.matches w = true ↔ w &&& r.mask = r.value) ∧
  (∀ (w : Word), ∀ r ∈ rows, ∀ r' ∈ rows, r.matches w = true → r'.matches w = true → r = r') ∧
  (∀ (t : Transaction), ∀ r ∈ rows, r.matches t.cmd = true → decode t = .ok (assemble r.name t)) ∧
  (∀ t : Transaction, (∀ r ∈ rows, r.matches t.cmd = false) → ∃ e, decode t = .error e)

/-- 95_test_vectors.md V-D1: words written out from the spec's encodings decode as it says. -/
def Obligations.SpecWordsDecode : Prop :=
  decode { cmd := 0x00040001#32, opa := 0xEDB88320#32 } = .ok (.newCrc .reflected 0xEDB88320#32) ∧
  decode { cmd := 0x00003103#32 } = .ok (.updateByte 0x31#8) ∧
  decode { cmd := 0x0000FF04#32, opa := 3#32 } = .ok (.updateRepeat 0xFF#8 3#32) ∧
  decode { cmd := 0x00010005#32, buf := [0x61#8] } = .ok (.update true [0x61#8]) ∧
  decode { cmd := 0x00020006#32 } = .ok (.checksumStream false true) ∧
  decode { cmd := 0x0001000B#32, opa := 1#32, buf := [0x61#8] } = .ok (.adler32 1#32 true [0x61#8]) ∧
  decode { cmd := 0x00000000#32 } = .error .reservedOpcode ∧
  decode { cmd := 0x00000017#32 } = .error .forbiddenBit

/-! ## Steps and the host -/

/-- 30_encoding.md R59, 70_reset_and_hazards.md R159: when the host's next act is a transaction that
decodes to a command, a step takes it from the host and is exec of that command. Nothing else stands
around exec. A word placed by `withFetchWord` is run so. The queue of the host's acts is the model's
choice (log entries 1 and 14). -/
def Obligations.StepRunsTheDecodedCommand : Prop :=
  (∀ (s : State) (t : Transaction) (i : Instr) (rest : List Input),
    s.inbox = .command t :: rest → decode t = .ok i → step s = exec i { s with inbox := rest }) ∧
  (∀ (s : State) (w : Nat) (i : Instr),
    decodeTableWord 32 w = some i → step (s.withFetchWord 32 w) = exec i s)

/-- 70_reset_and_hazards.md R159 to R161: a host input takes effect exactly when it keeps the host's
contract. That an answer nothing asked for has no step, and that RESULT may be read
while BUSY, are the model's readings (log entries 11 and 12). -/
def Obligations.InputHasAStepIffContractKept : Prop :=
  ∀ (e : Input) (s : State), (∃ t, deliver e s = .next t) ↔ Contract e s

/-- 70_reset_and_hazards.md R160: a command given while BUSY has no step; reading STATUS while busy is
allowed. The refusal, an undecodable word's too, is the spec's reading ("Giving it no step is the spec's
reading") and the model's deduction from it (log entry 11). -/
def Obligations.CommandWhileBusyHasNoStep : Prop :=
  ∀ (s : State), s.busy = true →
    (∀ t : Transaction, deliver (.command t) s = .refused .commandWhileBusy) ∧
    deliver .readStatus s = .next { s with outbox := s.outbox ++ [.statusValue (statusWord s)] }

/-- 10_state.md R30: the layout of STATUS; the host may read it at any time, and the read changes no
register. -/
def Obligations.StatusLayout : Prop :=
  ∀ s : State,
    (statusWord s).getLsbD 0 = s.busy ∧
    (statusWord s).extractLsb' 1 4 = s.err ∧
    (statusWord s).extractLsb' 5 27 = 0#27 ∧
    deliver .readStatus s = .next { s with outbox := s.outbox ++ [.statusValue (statusWord s)] }

/-- 10_state.md R31: a host read of RESULT gives its value once a command has written it. Before, it
faults (92_eei_decisions.md D20): the answer is a signal in place of a value (93_implementation_defined.md
U12). No register changes either way. That the instance goes on after the signal (log entry 21), and that
RESULT may be read while BUSY too (log entry 11: R31 does not say "at any time" as R30 does), are the
model's readings. -/
def Obligations.ResultRead : Prop :=
  ∀ s : State,
    (s.resultWritten = true →
      deliver .readResult s = .next { s with outbox := s.outbox ++ [.resultValue s.result] }) ∧
    (s.resultWritten = false →
      deliver .readResult s = .next { s with outbox := s.outbox ++ [.resultUnwritten] })

/-! ## Reset -/

/-- 70_reset_and_hazards.md R155: what hardware reset leaves, in `State.reset` and after a reset the
host applies in any state. The fields R155 calls UNSPEC have no stated value: whatever they hold while
CFG_VALID = 0, a command does the same, and leaves them or (NEW_CRC) overwrites them all. -/
def Obligations.HardwareResetState : Prop :=
  (State.reset.cfgValid = false ∧ State.reset.busy = false ∧ State.reset.err = 0#4 ∧
    State.reset.resultWritten = false ∧ State.reset.ioerr = none ∧ State.reset.strm = .idle) ∧
  (∀ s : State, ∃ t, deliver .hardwareReset s = .next t ∧
    t.cfgValid = false ∧ t.busy = false ∧ t.err = 0#4 ∧ t.resultWritten = false ∧
    t.ioerr = none ∧ t.strm = .idle) ∧
  ∀ (c : Transaction) (s t : State) (poly : Word) (bo : BitOrder) (T : Vector Word 256) (r : Word)
    (n : DWord), s.cfgValid = false → issue c s = .next t →
    let u := { s with poly := poly, bitord := bo, table := T, reg := r, tbr := n }
    issue c u = .next t ∨
      issue c u = .next { t with poly := poly, bitord := bo, table := T, reg := r, tbr := n }

/-! ## Errors -/

/-- 30_encoding.md R60: a reserved opcode, the all-zero word among them, completes with
ILLEGAL_COMMAND and triggers no operation. -/
def Obligations.ReservedOpcodesAreIllegal : Prop :=
  ∀ (t : Transaction) (s : State), s.busy = false →
    (opField t.cmd ∈ [0x0#4, 0xC#4, 0xD#4, 0xE#4, 0xF#4] → issue t s = .next (failedWith 4#4 s)) ∧
    (t.cmd = 0#32 → issue t s = .next (failedWith 4#4 s))

/-- 30_encoding.md R61: a legal opcode with a 1 in any bit outside its free bits completes with
ILLEGAL_COMMAND; so do bits 7:4 and 31:19 under any opcode. -/
def Obligations.ForbiddenBitsAreIllegal : Prop :=
  ∀ (t : Transaction) (s : State), s.busy = false →
    (∀ r ∈ rows, opField t.cmd = opField r.value → t.cmd &&& r.mask ≠ r.value →
      issue t s = .next (failedWith 4#4 s)) ∧
    (t.cmd &&& 0xFFF800F0#32 ≠ 0#32 → issue t s = .next (failedWith 4#4 s)) ∧
    (t.cmd = 0x00040002#32 → issue t s = .next (failedWith 4#4 s))

/-- 60_exceptions.md R141: while CFG_VALID = 0 every command of OP 0x2 to 0xA completes with ERR = 5
and no other effect; NEW_CRC and ADLER32 never raise it, in any configuration. -/
def Obligations.NotConfiguredBeforeNewCrc : Prop :=
  ∀ (i : Instr) (s : State), s.busy = false →
    (needsEngine i = true → s.cfgValid = false → exec i s = .next (failedWith 5#4 s)) ∧
    (needsEngine i = false → ∃ t, exec i s = .next t ∧ t.err = 0#4)

/-- 60_exceptions.md R137: UPDATE or CHECKSUM_STREAM with P = 0 completes with ERR = 1 before any
state changes; an absent ADLER32 buffer is no error. -/
def Obligations.AbsentInputFails : Prop :=
  (∀ s : State, Ready s →
    (∀ buf, exec (.update false buf) s = .next (failedWith 1#4 s)) ∧
    (∀ sk, exec (.checksumStream false sk) s = .next (failedWith 1#4 s))) ∧
  (∀ (s : State) (seed : Word) (buf : List Byte), s.busy = false →
    ∃ t, exec (.adler32 seed false buf) s = .next t ∧ t.err = 0#4)

/-- 60_exceptions.md R142: READ_TABLE with an index of 256 or more completes with ERR = 6 and no
other effect; no other command completes with ILLEGAL_OPERAND. -/
def Obligations.IllegalOperandOnlyFromReadTable : Prop :=
  (∀ (s : State) (index : Word), Ready s → 256 ≤ index.toNat →
    exec (.readTable index) s = .next (failedWith 6#4 s)) ∧
  (∀ (i : Instr) (s t : State) (w : Word) (r : Option DWord) (e : Option Config.IoErr),
    exec i s = .next t → t.outbox = s.outbox ++ [.completed w r e] → w.extractLsb' 1 4 = 6#4 →
    ∃ index : Word, i = .readTable index ∧ 256 ≤ index.toNat)

/-- 60_exceptions.md R143: the first error in the order ILLEGAL_COMMAND, NOT_CONFIGURED, NULL_INPUT,
ILLEGAL_OPERAND is the one reported; with none of them the command completes with ERR = 0, or has
started a stream, which by the model's reading leaves ERR until it completes (log entry 16). -/
def Obligations.FirstErrorIsReported : Prop :=
  ∀ (t : Transaction) (s : State), s.busy = false →
    ((∃ e, decode t = .error e) → issue t s = .next (failedWith 4#4 s)) ∧
    (∀ i, decode t = .ok i →
      if needsEngine i = true ∧ s.cfgValid = false then issue t s = .next (failedWith 5#4 s)
      else if inputAbsent i = true then issue t s = .next (failedWith 1#4 s)
      else if operandIllegal i = true then issue t s = .next (failedWith 6#4 s)
      else ∃ u, issue t s = .next u ∧
        ((u.busy = false ∧ u.err = 0#4) ∨
          (u.busy = true ∧ u.err = s.err ∧ ∃ sk, i = .checksumStream true sk)))

/-- 60_exceptions.md R139: a command that ends with an error other than an I/O error changes ERR and
no other register; a stream that starts keeps ERR, the model's reading (log entry 16). -/
def Obligations.ErrorsArePrecise : Prop :=
  ∀ (t : Transaction) (s u : State), issue t s = .next u →
    (u.busy = false ∧ u.err ≠ 0#4 → u = failedWith u.err s) ∧
    (u.busy = true → u.err = s.err)

/-- 41_crc_update.md R102, 60_exceptions.md R138: an I/O error in AwaitRead or AwaitWrite records the
token unchanged, leaves REG and TBR any values, ends the stream and does not write RESULT; RESET or
NEW_CRC then recovers. -/
def Obligations.IoErrorEndsTheStream : Prop :=
  ∀ (s : State) (e : Config.IoErr),
    (∀ sk, s.strm = .awaitRead sk → ∃ (r : Word) (c : DWord),
      deliver (.sourceAnswer (.fail e)) s = .next
        { s with
          ioerr := some e, reg := r, tbr := c, strm := .idle, busy := false, err := 2#4
          draws := s.draws + 1, outbox := s.outbox ++ [.completed 4#32 none (some e)] }) ∧
    (∀ d, s.strm = .awaitWrite d → ∃ (r : Word) (c : DWord),
      deliver (.sinkAnswer (.fail e)) s = .next
        { s with
          ioerr := some e, reg := r, tbr := c, strm := .idle, busy := false, err := 3#4
          draws := s.draws + 1, outbox := s.outbox ++ [.completed 6#32 none (some e)] }) ∧
    (∀ t, deliver (.sourceAnswer (.fail e)) s = .next t ∨
        deliver (.sinkAnswer (.fail e)) s = .next t →
      (s.cfgValid = true → ∃ u, exec .reset t = .next u ∧
        u.reg = 0xFFFFFFFF#32 ∧ u.tbr = 0#64 ∧ u.err = 0#4) ∧
      ∀ bo poly, ∃ u, exec (.newCrc bo poly) t = .next u ∧
        u.reg = 0xFFFFFFFF#32 ∧ u.tbr = 0#64 ∧ u.err = 0#4)

/-! ## The commands: the next state of each, which says what it changes and that it changes nothing
else. A completion with success is reported with STATUS 0. -/

/-- 40_crc_table.md R77: NEW_CRC, allowed in every configuration. -/
def Obligations.NewCrcResult : Prop :=
  ∀ (s : State) (bo : BitOrder) (poly : Word), s.busy = false →
    exec (.newCrc bo poly) s = .next
      { s with
        poly := poly, bitord := bo, table := buildTable poly bo, reg := 0xFFFFFFFF#32, tbr := 0#64
        cfgValid := true, err := 0#4, outbox := s.outbox ++ [.completed 0#32 none none] }

/-- 41_crc_update.md R95: RESET and its word; POLY, BITORD and TABLE are untouched, a second RESET
leaves every register as the first did, and READ_CRC then gives 0. -/
def Obligations.ResetResult : Prop :=
  decode { cmd := 0x00000002#32 } = .ok .reset ∧
  ∀ s : State,
    (Ready s → exec .reset s = .next
      { s with
        reg := 0xFFFFFFFF#32, tbr := 0#64, err := 0#4
        outbox := s.outbox ++ [.completed 0#32 none none] }) ∧
    (s.busy = false → s.cfgValid = false → exec .reset s = .next (failedWith 5#4 s)) ∧
    (∀ t u : State, exec .reset s = .next t → exec .reset t = .next u →
      { u with outbox := [] } = { t with outbox := [] }) ∧
    (∀ t : State, Ready s → exec .reset s = .next t →
      ∃ u, exec .readCrc t = .next u ∧ u.result = 0#64)

/-- 41_crc_update.md R92: UPDATE_BYTE, its words and the rule's example; TBR is not changed, and the
byte 0 applies the zero-byte operator. -/
def Obligations.UpdateByteResult : Prop :=
  updateByte (buildTable 0xEDB88320#32 .normal) .normal 0xFFFFFFFF#32 0x31#8 = 0x7C231048#32 ∧
  finalize 0x7C231048#32 = 0x83DCEFB7#32 ∧
  ∀ (s : State) (b : Byte),
    decode { cmd := 0x00000003#32 ||| (b.setWidth 32 <<< 8) } = .ok (.updateByte b) ∧
    (Ready s → ∃ t, exec (.updateByte 0#8) s = .next t ∧
      t.reg = zeroByte s.table s.bitord s.reg) ∧
    (Ready s → exec (.updateByte b) s = .next
      { s with
        reg := updateByte s.table s.bitord s.reg b, err := 0#4
        outbox := s.outbox ++ [.completed 0#32 none none] }) ∧
    (s.busy = false → s.cfgValid = false → exec (.updateByte b) s = .next (failedWith 5#4 s))

/-- 41_crc_update.md R93: UPDATE_REPEAT, its words and the rule's example: it consumes the byte n
times, n unsigned, as `update_block` of n copies does; TBR is not changed. -/
def Obligations.UpdateRepeatResult : Prop :=
  finalize (updateBlock (buildTable 0xEDB88320#32 .normal) .normal 0xFFFFFFFF#32
    (List.replicate 4 0x00#8)) = 0x2144DF1C#32 ∧
  ∀ (s : State) (b : Byte) (n : Word),
    decode { cmd := 0x00000004#32 ||| (b.setWidth 32 <<< 8), opa := n } = .ok (.updateRepeat b n) ∧
    (Ready s → ∃ t, exec (.updateRepeat b 0#32) s = .next t ∧ t.reg = s.reg) ∧
    (Ready s → exec (.updateRepeat b n) s = .next
      { s with
        reg := updateBlock s.table s.bitord s.reg (List.replicate n.toNat b), err := 0#4
        outbox := s.outbox ++ [.completed 0#32 none none] }) ∧
    (s.busy = false → s.cfgValid = false → exec (.updateRepeat b n) s = .next (failedWith 5#4 s))

/-- 41_crc_update.md R94: UPDATE, its words and the rule's example: with the buffer present, an empty
one among them (which changes neither REG nor TBR); with it absent NULL_INPUT; NOT_CONFIGURED first. -/
def Obligations.UpdateResult : Prop :=
  updateBlock (buildTable 0xEDB88320#32 .normal) .normal 0xFFFFFFFF#32
    [0x31#8, 0x32#8, 0x33#8, 0x34#8, 0x35#8, 0x36#8, 0x37#8, 0x38#8, 0x39#8] = 0x340BC6D9#32 ∧
  [0x31#8, 0x32#8, 0x33#8, 0x34#8, 0x35#8, 0x36#8, 0x37#8, 0x38#8, 0x39#8].length = 9 ∧
  ∀ (s : State) (buf : List Byte),
    decode { cmd := 0x00010005#32, buf := buf } = .ok (.update true buf) ∧
    decode { cmd := 0x00000005#32, buf := buf } = .ok (.update false []) ∧
    (Ready s → ∃ t, exec (.update true []) s = .next t ∧ t.reg = s.reg ∧ t.tbr = s.tbr ∧
      t.err = 0#4) ∧
    (Ready s → exec (.update true buf) s = .next
      { s with
        reg := updateBlock s.table s.bitord s.reg buf
        tbr := BitVec.ofNat 64 (s.tbr.toNat + buf.length), err := 0#4
        outbox := s.outbox ++ [.completed 0#32 none none] }) ∧
    (Ready s → exec (.update false buf) s = .next (failedWith 1#4 s)) ∧
    (∀ p, s.busy = false → s.cfgValid = false → exec (.update p buf) s = .next (failedWith 5#4 s))

/-- 41_crc_update.md R96: READ_CRC, its word and the rule's example: it gives the finalized checksum,
REG is not changed, reading twice gives the same value, and right after NEW_CRC or RESET it gives 0. -/
def Obligations.ReadCrcResult : Prop :=
  decode { cmd := 0x00000007#32 } = .ok .readCrc ∧
  crc 0xEDB88320#32 .normal
    [0x31#8, 0x32#8, 0x33#8, 0x34#8, 0x35#8, 0x36#8, 0x37#8, 0x38#8, 0x39#8] = 0xCBF43926#32 ∧
  (∀ s t u : State, exec .readCrc s = .next t → exec .readCrc t = .next u →
    u.result = t.result) ∧
  (∀ (s t : State) (i : Instr), Ready s → i = .reset ∨ (∃ bo poly, i = .newCrc bo poly) →
    exec i s = .next t → ∃ u, exec .readCrc t = .next u ∧ u.result = 0#64) ∧
  ∀ s : State,
    (Ready s → exec .readCrc s = .next
      { s with
        result := (~~~ s.reg).setWidth 64, resultWritten := true, err := 0#4
        outbox := s.outbox ++ [.completed 0#32 (some ((~~~ s.reg).setWidth 64)) none] }) ∧
    (s.busy = false → s.cfgValid = false → exec .readCrc s = .next (failedWith 5#4 s))

/-- 41_crc_update.md R104: READ_COUNT gives the 64-bit TBR. -/
def Obligations.ReadCountResult : Prop :=
  ∀ s : State,
    (Ready s → exec .readCount s = .next
      { s with
        result := s.tbr, resultWritten := true, err := 0#4
        outbox := s.outbox ++ [.completed 0#32 (some s.tbr) none] }) ∧
    (s.busy = false → s.cfgValid = false → exec .readCount s = .next (failedWith 5#4 s))

/-- 40_crc_table.md R78: READ_TABLE gives the entry of an index below 256; 256 and above is
ILLEGAL_OPERAND, and NOT_CONFIGURED comes first. -/
def Obligations.ReadTableResult : Prop :=
  ∀ (s : State) (index : Word),
    (Ready s → ∀ h : index.toNat < 256, exec (.readTable index) s = .next
      { s with
        result := (s.table[index.toNat]'h).setWidth 64, resultWritten := true, err := 0#4
        outbox := s.outbox ++ [.completed 0#32 (some ((s.table[index.toNat]'h).setWidth 64)) none] }) ∧
    (Ready s → 256 ≤ index.toNat → exec (.readTable index) s = .next (failedWith 6#4 s)) ∧
    (s.busy = false → s.cfgValid = false → exec (.readTable index) s = .next (failedWith 5#4 s))

/-- 42_crc_combine.md R117: COMBINE on the public values; REG is the complement of the result, TBR is
not changed, the earlier REG and `len_a` play no part. -/
def Obligations.CombineResult : Prop :=
  ∀ (s : State) (crcA crcB lenB lenA : Word),
    (Ready s → ∀ c : Word,
      c = (if lenB = 0#32 then crcA else zeros s.table s.bitord crcA lenB ^^^ crcB) →
      exec (.combine crcA crcB lenB lenA) s = .next
        { s with
          reg := ~~~ c, result := c.setWidth 64, resultWritten := true, err := 0#4
          outbox := s.outbox ++ [.completed 0#32 (some (c.setWidth 64)) none] }) ∧
    (s.busy = false → s.cfgValid = false →
      exec (.combine crcA crcB lenB lenA) s = .next (failedWith 5#4 s))

/-- 43_adler32.md R132: ADLER32 in any configuration: 1 for an absent buffer whatever the seed, else
the Adler-32 value; no state but RESULT and ERR is written. -/
def Obligations.Adler32Result : Prop :=
  ∀ (s : State) (seed : Word) (p : Bool) (buf : List Byte), s.busy = false →
    ∀ v : Word, v = (if p then adler32 seed buf else 1#32) →
      exec (.adler32 seed p buf) s = .next
        { s with
          result := v.setWidth 64, resultWritten := true, err := 0#4
          outbox := s.outbox ++ [.completed 0#32 (some (v.setWidth 64)) none] }

/-- 10_state.md R23, the column "written by": each register is written by no command but those R23
names; no command touches the model's inputs, CHUNK_SIZE, or the source and the count of draws. -/
def Obligations.WritersOfEachRegister : Prop :=
  ∀ (i : Instr) (s t : State), exec i s = .next t →
    ((∃ bo p, i = .newCrc bo p) ∨
      (t.cfgValid = s.cfgValid ∧ t.poly = s.poly ∧ t.bitord = s.bitord ∧ t.table = s.table)) ∧
    (i.mnemonic ∈ [.newCrc, .reset, .updateByte, .updateRepeat, .update, .combine] ∨
      t.reg = s.reg) ∧
    (i.mnemonic ∈ [.newCrc, .reset, .update, .checksumStream] ∨ t.tbr = s.tbr) ∧
    (i.mnemonic = .checksumStream ∨ (t.busy = s.busy ∧ t.strm = s.strm)) ∧
    (i.mnemonic ∈ [.readCrc, .readCount, .readTable, .combine, .adler32] ∨
      (t.result = s.result ∧ t.resultWritten = s.resultWritten)) ∧
    t.ioerr = s.ioerr ∧ t.inbox = s.inbox ∧ t.chunkSize = s.chunkSize ∧
    t.drawSource = s.drawSource ∧ t.draws = s.draws

/-- 10_state.md R24, R25, R26, R27: over a whole step, POLY, BITORD and TABLE change only by NEW_CRC
or hardware reset, and nothing but hardware reset clears CFG_VALID. -/
def Obligations.ConfigurationIsKept : Prop :=
  ∀ s t : State, step s = .next t →
    s.inbox.head? = some .hardwareReset ∨
    ((s.cfgValid = true → t.cfgValid = true) ∧
      ((∃ tr bo p, s.inbox.head? = some (.command tr) ∧ decode tr = .ok (.newCrc bo p)) ∨
        (t.cfgValid = s.cfgValid ∧ t.poly = s.poly ∧ t.bitord = s.bitord ∧ t.table = s.table)))

/-! ## The stream -/

/-- 41_crc_update.md R98: CHECKSUM_STREAM starts: TBR is cleared, REG is not, BUSY rises and
SrcRead(CHUNK_SIZE) is issued; the errors change nothing but ERR, TBR kept too. That a start keeps ERR
is the model's reading (log entry 16). -/
def Obligations.StreamStarts : Prop :=
  ∀ (s : State) (sk : Bool),
    (Ready s → exec (.checksumStream true sk) s = .next
      { s with
        tbr := 0#64, strm := .awaitRead sk, busy := true
        outbox := s.outbox ++ [.srcRead s.chunkSize] }) ∧
    (Ready s → exec (.checksumStream false sk) s = .next (failedWith 1#4 s)) ∧
    (∀ p, s.busy = false → s.cfgValid = false →
      exec (.checksumStream p sk) s = .next (failedWith 5#4 s))

/-- 41_crc_update.md R99: a non-empty read answer of at most CHUNK_SIZE bytes goes to the sink first,
or is absorbed and counted once and the next read is issued; a longer one has no step. -/
def Obligations.StreamTakesAChunk : Prop :=
  ∀ (s : State) (d : List Byte),
    (s.strm = .awaitRead true → d ≠ [] → d.length ≤ s.chunkSize →
      deliver (.sourceAnswer (.data d)) s = .next
        { s with strm := .awaitWrite d, outbox := s.outbox ++ [.sinkWrite d] }) ∧
    (s.strm = .awaitRead false → d ≠ [] → d.length ≤ s.chunkSize →
      deliver (.sourceAnswer (.data d)) s = .next
        { s with
          reg := updateBlock s.table s.bitord s.reg d
          tbr := BitVec.ofNat 64 (s.tbr.toNat + d.length)
          strm := .awaitRead false, outbox := s.outbox ++ [.srcRead s.chunkSize] }) ∧
    (∀ sk, s.strm = .awaitRead sk → s.chunkSize < d.length →
      deliver (.sourceAnswer (.data d)) s = .refused .oversizeAnswer)

/-- 41_crc_update.md R100: after the sink's Ok the chunk is absorbed and the next read is issued;
after Fail(e) the stream ends with IO_WRITE. -/
def Obligations.StreamAbsorbsAfterTheSink : Prop :=
  ∀ (s : State) (d : List Byte), s.strm = .awaitWrite d →
    deliver (.sinkAnswer .ok) s = .next
      { s with
        reg := updateBlock s.table s.bitord s.reg d
        tbr := BitVec.ofNat 64 (s.tbr.toNat + d.length)
        strm := .awaitRead true, outbox := s.outbox ++ [.srcRead s.chunkSize] } ∧
    ∀ e, ∃ t, deliver (.sinkAnswer (.fail e)) s = .next t ∧
      t.err = 3#4 ∧ t.ioerr = some e ∧ t.strm = .idle ∧ t.busy = false ∧
      t.result = s.result ∧ t.resultWritten = s.resultWritten

/-- 41_crc_update.md R101: an empty read ends the stream with the finalized checksum; REG keeps its
value and no sink write is issued, and a READ_CRC right after gives the same checksum. -/
def Obligations.StreamEnds : Prop :=
  ∀ (s : State) (sk : Bool), s.strm = .awaitRead sk →
    deliver (.sourceAnswer (.data [])) s = .next
      { s with
        strm := .idle, busy := false, result := (~~~ s.reg).setWidth 64, resultWritten := true
        err := 0#4
        outbox := s.outbox ++ [.completed 0#32 (some ((~~~ s.reg).setWidth 64)) none] } ∧
    ∀ t, deliver (.sourceAnswer (.data [])) s = .next t → s.cfgValid = true →
      ∃ u, exec .readCrc t = .next u ∧ u.result = t.result

/-- 41_crc_update.md R103: whatever the chunks and whatever CHUNK_SIZE, a stream over `m` gives the
checksum of `m` from the REG it started with, and counts `len(m)`; so does any split of `m` over
UPDATE commands. -/
def Obligations.ChunkBoundaryIndependence : Prop :=
  ∀ (s : State) (ds : List (List Byte)), Ready s →
    ((∀ d ∈ ds, d ≠ [] ∧ d.length ≤ s.chunkSize) → ∀ sk : Bool, ∃ t,
      runInputs (.command (encode (.checksumStream true sk)) :: streamAnswers sk ds) s = .next t ∧
      t.result = (~~~ updateBlock s.table s.bitord s.reg ds.flatten).setWidth 64 ∧
      t.reg = updateBlock s.table s.bitord s.reg ds.flatten ∧
      t.tbr = BitVec.ofNat 64 ds.flatten.length ∧
      t.resultWritten = true ∧ t.busy = false ∧ t.strm = .idle ∧ t.err = 0#4) ∧
    (∃ t, runInputs (ds.map fun d => .command (encode (.update true d))) s = .next t ∧
      t.reg = updateBlock s.table s.bitord s.reg ds.flatten ∧
      t.tbr = BitVec.ofNat 64 (s.tbr.toNat + ds.flatten.length))

/-- 20_memory.md R46: with a sink, each non-empty chunk is passed to SinkWrite once, unchanged, before
the next SrcRead, and no write is issued for the final empty read; the sink's bytes are the
source's. -/
def Obligations.SinkReceivesTheSourceBytes : Prop :=
  ∀ (s : State) (ds : List (List Byte)), Ready s →
    (∀ d ∈ ds, d ≠ [] ∧ d.length ≤ s.chunkSize) → ∃ t v,
      runInputs (.command (encode (.checksumStream true true)) :: streamAnswers true ds) s = .next t ∧
      t.outbox = s.outbox ++ ds.flatMap (fun d => [.srcRead s.chunkSize, .sinkWrite d]) ++
        [.srcRead s.chunkSize, .completed 0#32 (some v) none] ∧
      sinkBytes t.outbox = sinkBytes s.outbox ++ ds.flatten

/-! ## Tables and datapaths -/

/-- 40_crc_table.md R70, R71: bit `k` of `rev32(x)` is bit `31 - k` of `x`, bit `k` of `rev8(i)` is
bit `7 - k` of `i`, and `rev8(i) = rev32(zext_32(i)) >> 24`. -/
def Obligations.BitReversal : Prop :=
  (∀ (x : Word) (k : Nat), k < 32 → (rev32 x).getLsbD k = x.getLsbD (31 - k)) ∧
  (∀ (i : Byte) (k : Nat), k < 8 → (rev8 i).getLsbD k = i.getLsbD (7 - k)) ∧
  (∀ i : Byte, (rev8 i).setWidth 32 = rev32 (i.setWidth 32) >>> 24)

/-- 40_crc_table.md R73: the entries of both tables, and in Reflected mode every entry is written
exactly once. -/
def Obligations.TableEntries : Prop :=
  ∀ poly : Word,
    (∀ i : Byte, lookup (buildTable poly .normal) i = div8 i poly) ∧
    (∀ i : Byte, lookup (buildTable poly .reflected) (rev8 i) = rev32 (div8 i poly)) ∧
    (∀ j : Byte, ∃ i : Byte, rev8 i = j ∧ ∀ i' : Byte, rev8 i' = j → i' = i)

/-- 40_crc_table.md R74: entry 0, linearity in the index, and the two entries that show the
polynomial. -/
def Obligations.TableIsLinear : Prop :=
  ∀ poly : Word,
    (∀ bo : BitOrder, lookup (buildTable poly bo) 0#8 = 0#32 ∧
      ∀ a b : Byte, lookup (buildTable poly bo) (a ^^^ b) =
        lookup (buildTable poly bo) a ^^^ lookup (buildTable poly bo) b) ∧
    lookup (buildTable poly .normal) 0x80#8 = poly ∧
    lookup (buildTable poly .reflected) 0x01#8 = rev32 poly

/-- 40_crc_table.md R75: the symmetry of the two tables of one polynomial, both ways round. -/
def Obligations.TableSymmetry : Prop :=
  ∀ (poly : Word) (i : Byte),
    lookup (buildTable poly .reflected) (rev8 i) = rev32 (lookup (buildTable poly .normal) i) ∧
    lookup (buildTable poly .normal) (rev8 i) = rev32 (lookup (buildTable poly .reflected) i)

/-- 41_crc_update.md R88: the Normal datapath is eight serial steps, bit 0 of the byte first. -/
def Obligations.NormalIsEightSerialSteps : Prop :=
  ∀ (poly r : Word) (b : Byte),
    updateByte (buildTable poly .normal) .normal r b =
      (fun x : Word => if x.getLsbD 0 then (x >>> 1) ^^^ poly else x >>> 1)^[8]
        (r ^^^ b.setWidth 32)

/-- 41_crc_update.md R89: the Reflected datapath is eight serial steps of the mirrored circuit, bit 7
of the byte first. -/
def Obligations.ReflectedIsEightSerialSteps : Prop :=
  ∀ (poly r : Word) (b : Byte),
    updateByte (buildTable poly .reflected) .reflected r b =
      (fun x : Word => if x.getLsbD 31 then (x <<< 1) ^^^ rev32 poly else x <<< 1)^[8]
        (r ^^^ (b.setWidth 32 <<< 24))

/-- 41_crc_update.md R107: a byte, and a message, split into the zero-byte operator on the register
and an update of the zero register; the table is linear in its index. -/
def Obligations.AffineDecomposition : Prop :=
  ∀ (poly : Word) (bo : BitOrder) (r : Word),
    (∀ b : Byte, updateByte (buildTable poly bo) bo r b =
      zeroByte (buildTable poly bo) bo r ^^^ updateByte (buildTable poly bo) bo 0#32 b) ∧
    (∀ m : List Byte, updateBlock (buildTable poly bo) bo r m =
      (zeroByte (buildTable poly bo) bo)^[m.length] r ^^^
        updateBlock (buildTable poly bo) bo 0#32 m) ∧
    (∀ x b : Byte, lookup (buildTable poly bo) (x ^^^ b) =
      lookup (buildTable poly bo) x ^^^ lookup (buildTable poly bo) b)

/-- 41_crc_update.md R106: the CRC of the empty message is 0 in both bit orders. -/
def Obligations.EmptyMessageCrc : Prop :=
  ∀ (poly : Word) (bo : BitOrder), crc poly bo [] = ~~~ 0xFFFFFFFF#32 ∧ crc poly bo [] = 0#32

/-- 41_crc_update.md R105: from every configured state that keeps the invariant, RESET, UPDATE m,
READ_CRC return what NEW_CRC with the same configuration, UPDATE m, READ_CRC return. -/
def Obligations.ResetIdempotence : Prop :=
  ∀ (s : State) (m : List Byte), StateInv s → Ready s → ∃ t u,
    runInputs [.command (encode .reset), .command (encode (.update true m)),
      .command (encode .readCrc)] s = .next t ∧
    runInputs [.command (encode (.newCrc s.bitord s.poly)), .command (encode (.update true m)),
      .command (encode .readCrc)] s = .next u ∧
    t.result = u.result ∧ t.result = (crc s.poly s.bitord m).setWidth 64

/-! ## Combine -/

/-- 42_crc_combine.md R111: the matrix of the zero-byte operator in closed form, both modes. -/
def Obligations.ZeroMatrixColumns : Prop :=
  ∀ (poly : Word) (i : Fin 32),
    (zeroMatrix (buildTable poly .normal) .normal)[i] =
      (if i.val < 8 then lookup (buildTable poly .normal) (1#8 <<< i.val)
        else 1#32 <<< (i.val - 8)) ∧
    (zeroMatrix (buildTable poly .reflected) .reflected)[i] =
      (if i.val < 24 then 1#32 <<< (i.val + 8)
        else lookup (buildTable poly .reflected) (1#8 <<< (i.val - 24)))

/-- 42_crc_combine.md R112: `Z` is linear over GF(2) and equals multiplication by `M1`. -/
def Obligations.ZeroByteIsLinear : Prop :=
  ∀ (poly : Word) (bo : BitOrder),
    (∀ a b : Word, zeroByte (buildTable poly bo) bo (a ^^^ b) =
      zeroByte (buildTable poly bo) bo a ^^^ zeroByte (buildTable poly bo) bo b) ∧
    zeroByte (buildTable poly bo) bo 0#32 = 0#32 ∧
    (∀ r : Word, gf2Times (zeroMatrix (buildTable poly bo) bo) r = zeroByte (buildTable poly bo) bo r)

/-- 42_crc_combine.md R114: `gf2_square(M)` column by column, and as `M` applied twice; the square of
the matrix that advances by `k` zero bytes advances by `2k`. -/
def Obligations.SquareAdvancesTwice : Prop :=
  (∀ (M : GfMatrix) (i : Fin 32), (gf2Square M)[i] = gf2Times M M[i]) ∧
  (∀ (M : GfMatrix) (v : Word), gf2Times (gf2Square M) v = gf2Times M (gf2Times M v)) ∧
  (∀ (M : GfMatrix) (poly : Word) (bo : BitOrder) (k : Nat),
    (∀ v, gf2Times M v = (zeroByte (buildTable poly bo) bo)^[k] v) →
    ∀ v, gf2Times (gf2Square M) v = (zeroByte (buildTable poly bo) bo)^[2 * k] v)

/-- 42_crc_combine.md R115: square-and-multiply advances by exactly `n` zero bytes, for every count. -/
def Obligations.ZerosAdvancesByZeroBytes : Prop :=
  ∀ (poly : Word) (bo : BitOrder) (v n : Word),
    zeros (buildTable poly bo) bo v n = (zeroByte (buildTable poly bo) bo)^[n.toNat] v

/-- 42_crc_combine.md R118: for every polynomial, both bit orders and all A and B with
`len(B) < 2^32`, COMBINE gives the CRC of `A ‖ B`, whatever `len_a` is: `zeros` of the public `crc(A)`
XORed with the public `crc(B)`. The register is left as its complement, so that READ_CRC gives it back. -/
def Obligations.CombineIsTheCrcOfTheConcatenation : Prop :=
  ∀ (s : State) (A B : List Byte) (lenA : Word), StateInv s → Ready s → B.length < 2 ^ 32 → ∃ t,
    exec (.combine (crc s.poly s.bitord A) (crc s.poly s.bitord B) (BitVec.ofNat 32 B.length) lenA) s
      = .next t ∧
    t.result = (crc s.poly s.bitord (A ++ B)).setWidth 64 ∧
    crc s.poly s.bitord (A ++ B) =
      zeros s.table s.bitord (crc s.poly s.bitord A) (BitVec.ofNat 32 B.length) ^^^
        crc s.poly s.bitord B ∧
    ~~~ t.reg = crc s.poly s.bitord (A ++ B) ∧
    ∃ u, exec .readCrc t = .next u ∧ u.result = t.result

/-- 42_crc_combine.md R119, R120: `len_b = 0` returns `crc_a` unchanged and sets REG to its complement;
with `crc_b` the CRC of an empty block the general formula gives the same. No value of `len_a` changes
what COMBINE does. -/
def Obligations.CombineUnusedOperands : Prop :=
  (∀ (s : State) (crcA crcB lenA : Word), Ready s → ∃ t,
    exec (.combine crcA crcB 0#32 lenA) s = .next t ∧ t.result = crcA.setWidth 64 ∧
      t.reg = ~~~ crcA) ∧
  (∀ (T : Vector Word 256) (bo : BitOrder) (poly crcA : Word),
    zeros T bo crcA 0#32 ^^^ crc poly bo [] = crcA) ∧
  (∀ (s : State) (crcA crcB lenB lenA lenA' : Word),
    exec (.combine crcA crcB lenB lenA) s = exec (.combine crcA crcB lenB lenA') s)

/-! ## Adler-32 -/

/-- 43_adler32.md R126, R129: an absent buffer gives 1 for every seed; a present empty one gives the
seed exactly, reduced or not. -/
def Obligations.AdlerOfNoBytes : Prop :=
  ∀ (s : State) (seed : Word), s.busy = false →
    (∀ buf, ∃ t, exec (.adler32 seed false buf) s = .next t ∧ t.result = 1#64) ∧
    (∃ t, exec (.adler32 seed true []) s = .next t ∧ t.result = seed.setWidth 64)

/-- 43_adler32.md R130: the closed form of both sums for a non-empty buffer, which is byte-by-byte
accumulation with a reduction after every byte, and any split into sub-blocks with a reduction after
each. -/
def Obligations.AdlerClosedForm : Prop :=
  ∀ (s1 s2 : Nat) (d : List Byte), d ≠ [] →
    (adlerAcc (s1, s2) d).1 = (s1 + (d.map (·.toNat)).sum) % 65521 ∧
    (adlerAcc (s1, s2) d).2 =
      (s2 + d.length * s1 + ((List.range d.length).map
        fun k => (d.length - k) * (d.getD k 0#8).toNat).sum) % 65521 ∧
    adlerAcc (s1, s2) d = d.foldl (fun acc b => adlerReduce (adlerStep acc b)) (s1, s2) ∧
    ∀ ds : List (List Byte), ds.flatten = d →
      adlerAcc (s1, s2) d = ds.foldl (fun acc b => adlerReduce (adlerBlock acc b)) (s1, s2)

/-- 43_adler32.md R131: no sum of R127 passes 2^32 - 1, for every seed and every buffer. After `k`
rounds the loop takes the sub-block of at most NMAX bytes at `k * NMAX`, which is its next round; the
sums it enters and the sums after each byte of it stay within the worst case; and where no byte is left
the loop has ended. 5552 is the largest such sub-block length, and 65521 is the only prime from 65521 to
65535. -/
def Obligations.AdlerNoOverflow : Prop :=
  (∀ (seed : Word) (d : List Byte) (k : Nat),
    let start := adlerLoop k (adlerSplit seed) d
    let block := (d.drop (k * Config.nmax)).take Config.nmax
    (block = [] → start = adlerAcc (adlerSplit seed) d) ∧
    (block ≠ [] → adlerLoop (k + 1) (adlerSplit seed) d = adlerReduce (adlerBlock start block)) ∧
    ∀ j : Nat, (adlerBlock start (block.take j)).1 ≤ 4294773495 ∧
      (adlerBlock start (block.take j)).2 ≤ 4294773495) ∧
  Config.nmax = 5552 ∧
  (∀ seed : Word, (adlerSplit seed).1 ≤ 65535 ∧ (adlerSplit seed).2 ≤ 65535) ∧
  (∀ acc : Nat × Nat, (adlerReduce acc).1 ≤ 65535 ∧ (adlerReduce acc).2 ≤ 65535) ∧
  (∀ (s1 s2 : Nat) (d : List Byte), s1 ≤ 65535 → s2 ≤ 65535 → d.length ≤ 5552 →
    (adlerBlock (s1, s2) d).1 ≤ 4294773495 ∧ (adlerBlock (s1, s2) d).2 ≤ 4294773495) ∧
  65535 + 5552 * 65535 + 255 * 5552 * 5553 / 2 = 4294773495 ∧ 4294773495 < 4294967295 ∧
  (∀ n : Nat, 255 * n * (n + 1) / 2 + (n + 1) * 65520 ≤ 2 ^ 32 - 1 ↔ n ≤ 5552) ∧
  (∀ n : Nat, 255 * n * (n + 1) / 2 + (n + 1) * 65535 ≤ 2 ^ 32 - 1 ↔ n ≤ 5552) ∧
  (∀ p : Nat, 65521 ≤ p → p ≤ 65535 → (Nat.Prime p ↔ p = 65521))

/-- 43_adler32.md R133: Adler-32 resumes: over `X ‖ Y` it is Adler-32 over `Y` seeded with Adler-32
over `X`, for every seed, reduced or not. -/
def Obligations.AdlerComposition : Prop :=
  ∀ (seed : Word) (X Y : List Byte), adler32 (adler32 seed X) Y = adler32 seed (X ++ Y)

/-- 43_adler32.md R128: the result is `(s2 << 16) | s1`; for a non-empty buffer both sums are below
65521, bits 15:0 of the result are `s1` and bits 31:16 are `s2`. -/
def Obligations.AdlerResultFields : Prop :=
  ∀ (seed : Word) (d : List Byte) (s1 s2 : Nat),
    (s1, s2) = adlerAcc ((seed &&& 0xFFFF#32).toNat, (seed >>> 16).toNat) d →
    adler32 seed d = (BitVec.ofNat 32 s2 <<< 16) ||| BitVec.ofNat 32 s1 ∧
    (d ≠ [] → s1 < 65521 ∧ s2 < 65521 ∧
      (adler32 seed d).extractLsb' 0 16 = BitVec.ofNat 16 s1 ∧
      (adler32 seed d).extractLsb' 16 16 = BitVec.ofNat 16 s2)

/-! ## Invariants and instances -/

/-- 10_state.md R30, R33, R35, 60_exceptions.md R136: the invariant holds after hardware reset. -/
def Obligations.InvariantAtReset : Prop := StateInv State.reset

/-- 10_state.md R30, R33, R35, 60_exceptions.md R136: every step keeps the invariant: the table is the
one its configuration builds, BUSY is 1 exactly while a stream is in progress, ERR is at most 6, a
chunk in hand is non-empty and at most CHUNK_SIZE bytes, and only a constructed engine streams. -/
def Obligations.EveryStepKeepsTheInvariant : Prop :=
  ∀ s t : State, StateInv s → step s = .next t → StateInv t

/-- 60_exceptions.md R151: a step of one instance is a step of its own state and leaves every other
instance as it was, and instances start from hardware reset. That each draws its free values from a
source of its own, which no step changes, is the model's choice (log entry 10). -/
def Obligations.InstancesShareNoState : Prop :=
  ∀ (n : Nat) (k : Fin n),
    (∀ p q : Platform n, stepInstance n k p = .next q →
      step p.cores[k] = .next q.cores[k] ∧ ∀ j : Fin n, j ≠ k → q.cores[j] = p.cores[j]) ∧
    (∀ (p : Platform n) (t : State), step p.cores[k] = .next t →
      ∃ q, stepInstance n k p = .next q ∧ q.cores[k] = t) ∧
    deliver .hardwareReset { State.reset with drawSource := k.val } =
      .next (platformReset n).cores[k] ∧
    (platformReset n).cores[k].drawSource = k.val ∧
    ∀ s t : State, step s = .next t → t.drawSource = s.drawSource

/-- 60_exceptions.md R151: two instances given the same polynomial and bit order and the same bytes,
each in its own chunks, give the same checksum. -/
def Obligations.SameBytesSameChecksum : Prop :=
  ∀ (s s' : State) (poly : Word) (bo : BitOrder) (ds ds' : List (List Byte)),
    s.busy = false → s'.busy = false → ds.flatten = ds'.flatten → ∃ t t',
      runInputs (.command (encode (.newCrc bo poly)) ::
        (ds.map fun d => .command (encode (.update true d))) ++ [.command (encode .readCrc)]) s
          = .next t ∧
      runInputs (.command (encode (.newCrc bo poly)) ::
        (ds'.map fun d => .command (encode (.update true d))) ++ [.command (encode .readCrc)]) s'
          = .next t' ∧
      t.result = t'.result ∧ t.result = (crc poly bo ds.flatten).setWidth 64
end

