-- ==== Sys2Proof/Laws/State.lean ====
section
/-! SUPPORT. What each shared update leaves in each field of the state, so that no proof unfolds a
record update. -/

namespace Sys2Proof.Machine

/-! `emit` -/

@[simp] theorem emit_cfgValid (o : Output) (s : State) : (emit o s).cfgValid = s.cfgValid := rfl

@[simp] theorem emit_poly (o : Output) (s : State) : (emit o s).poly = s.poly := rfl

@[simp] theorem emit_bitord (o : Output) (s : State) : (emit o s).bitord = s.bitord := rfl

@[simp] theorem emit_table (o : Output) (s : State) : (emit o s).table = s.table := rfl

@[simp] theorem emit_reg (o : Output) (s : State) : (emit o s).reg = s.reg := rfl

@[simp] theorem emit_tbr (o : Output) (s : State) : (emit o s).tbr = s.tbr := rfl

@[simp] theorem emit_busy (o : Output) (s : State) : (emit o s).busy = s.busy := rfl

@[simp] theorem emit_err (o : Output) (s : State) : (emit o s).err = s.err := rfl

@[simp] theorem emit_result (o : Output) (s : State) : (emit o s).result = s.result := rfl

@[simp] theorem emit_resultWritten (o : Output) (s : State) :
    (emit o s).resultWritten =
      s.resultWritten := rfl

@[simp] theorem emit_ioerr (o : Output) (s : State) : (emit o s).ioerr = s.ioerr := rfl

@[simp] theorem emit_strm (o : Output) (s : State) : (emit o s).strm = s.strm := rfl

@[simp] theorem emit_chunkSize (o : Output) (s : State) : (emit o s).chunkSize = s.chunkSize := rfl

@[simp] theorem emit_inbox (o : Output) (s : State) : (emit o s).inbox = s.inbox := rfl

@[simp] theorem emit_outbox (o : Output) (s : State) : (emit o s).outbox = s.outbox ++ [o] := rfl

@[simp] theorem emit_drawSource (o : Output) (s : State) : (emit o s).drawSource = s.drawSource := rfl

@[simp] theorem emit_draws (o : Output) (s : State) : (emit o s).draws = s.draws := rfl

/-! `complete` -/

@[simp] theorem complete_cfgValid (s : State) : (complete s).cfgValid = s.cfgValid := rfl

@[simp] theorem complete_poly (s : State) : (complete s).poly = s.poly := rfl

@[simp] theorem complete_bitord (s : State) : (complete s).bitord = s.bitord := rfl

@[simp] theorem complete_table (s : State) : (complete s).table = s.table := rfl

@[simp] theorem complete_reg (s : State) : (complete s).reg = s.reg := rfl

@[simp] theorem complete_tbr (s : State) : (complete s).tbr = s.tbr := rfl

@[simp] theorem complete_busy (s : State) : (complete s).busy = s.busy := rfl

@[simp] theorem complete_err (s : State) : (complete s).err = errCode .ok := rfl

@[simp] theorem complete_result (s : State) : (complete s).result = s.result := rfl

@[simp] theorem complete_resultWritten (s : State) :
    (complete s).resultWritten =
      s.resultWritten := rfl

@[simp] theorem complete_ioerr (s : State) : (complete s).ioerr = s.ioerr := rfl

@[simp] theorem complete_strm (s : State) : (complete s).strm = s.strm := rfl

@[simp] theorem complete_chunkSize (s : State) : (complete s).chunkSize = s.chunkSize := rfl

@[simp] theorem complete_inbox (s : State) : (complete s).inbox = s.inbox := rfl

@[simp] theorem complete_outbox (s : State) :
    (complete s).outbox =
      s.outbox ++ [.completed (statusWord { s with err := errCode .ok }) none none] := rfl

@[simp] theorem complete_drawSource (s : State) : (complete s).drawSource = s.drawSource := rfl

@[simp] theorem complete_draws (s : State) : (complete s).draws = s.draws := rfl

/-! `completeWith` -/

@[simp] theorem completeWith_cfgValid (v : DWord) (s : State) :
    (completeWith v s).cfgValid =
      s.cfgValid := rfl

@[simp] theorem completeWith_poly (v : DWord) (s : State) : (completeWith v s).poly = s.poly := rfl

@[simp] theorem completeWith_bitord (v : DWord) (s : State) :
    (completeWith v s).bitord =
      s.bitord := rfl

@[simp] theorem completeWith_table (v : DWord) (s : State) :
    (completeWith v s).table =
      s.table := rfl

@[simp] theorem completeWith_reg (v : DWord) (s : State) : (completeWith v s).reg = s.reg := rfl

@[simp] theorem completeWith_tbr (v : DWord) (s : State) : (completeWith v s).tbr = s.tbr := rfl

@[simp] theorem completeWith_busy (v : DWord) (s : State) : (completeWith v s).busy = s.busy := rfl

@[simp] theorem completeWith_err (v : DWord) (s : State) :
    (completeWith v s).err =
      errCode .ok := rfl

@[simp] theorem completeWith_result (v : DWord) (s : State) : (completeWith v s).result = v := rfl

@[simp] theorem completeWith_resultWritten (v : DWord) (s : State) :
    (completeWith v s).resultWritten =
      true := rfl

@[simp] theorem completeWith_ioerr (v : DWord) (s : State) :
    (completeWith v s).ioerr =
      s.ioerr := rfl

@[simp] theorem completeWith_strm (v : DWord) (s : State) : (completeWith v s).strm = s.strm := rfl

@[simp] theorem completeWith_chunkSize (v : DWord) (s : State) :
    (completeWith v s).chunkSize =
      s.chunkSize := rfl

@[simp] theorem completeWith_inbox (v : DWord) (s : State) :
    (completeWith v s).inbox =
      s.inbox := rfl

@[simp] theorem completeWith_outbox (v : DWord) (s : State) :
    (completeWith v s).outbox =
      s.outbox ++ [.completed (statusWord { s with err := errCode .ok }) (some v) none] := rfl

@[simp] theorem completeWith_drawSource (v : DWord) (s : State) :
    (completeWith v s).drawSource =
      s.drawSource := rfl

@[simp] theorem completeWith_draws (v : DWord) (s : State) :
    (completeWith v s).draws =
      s.draws := rfl

/-! `raise` -/

@[simp] theorem raise_cfgValid (e : Err) (s : State) : (raise e s).cfgValid = s.cfgValid := rfl

@[simp] theorem raise_poly (e : Err) (s : State) : (raise e s).poly = s.poly := rfl

@[simp] theorem raise_bitord (e : Err) (s : State) : (raise e s).bitord = s.bitord := rfl

@[simp] theorem raise_table (e : Err) (s : State) : (raise e s).table = s.table := rfl

@[simp] theorem raise_reg (e : Err) (s : State) : (raise e s).reg = s.reg := rfl

@[simp] theorem raise_tbr (e : Err) (s : State) : (raise e s).tbr = s.tbr := rfl

@[simp] theorem raise_busy (e : Err) (s : State) : (raise e s).busy = s.busy := rfl

@[simp] theorem raise_err (e : Err) (s : State) : (raise e s).err = errCode e := rfl

@[simp] theorem raise_result (e : Err) (s : State) : (raise e s).result = s.result := rfl

@[simp] theorem raise_resultWritten (e : Err) (s : State) :
    (raise e s).resultWritten =
      s.resultWritten := rfl

@[simp] theorem raise_ioerr (e : Err) (s : State) : (raise e s).ioerr = s.ioerr := rfl

@[simp] theorem raise_strm (e : Err) (s : State) : (raise e s).strm = s.strm := rfl

@[simp] theorem raise_chunkSize (e : Err) (s : State) : (raise e s).chunkSize = s.chunkSize := rfl

@[simp] theorem raise_inbox (e : Err) (s : State) : (raise e s).inbox = s.inbox := rfl

@[simp] theorem raise_outbox (e : Err) (s : State) :
    (raise e s).outbox =
      s.outbox ++ [.completed (statusWord { s with err := errCode e }) none none] := rfl

@[simp] theorem raise_drawSource (e : Err) (s : State) : (raise e s).drawSource = s.drawSource := rfl

@[simp] theorem raise_draws (e : Err) (s : State) : (raise e s).draws = s.draws := rfl

/-! `ioError` -/

@[simp] theorem ioError_cfgValid (e : Err) (k : Config.IoErr) (s : State) :
    (ioError e k s).cfgValid =
      s.cfgValid := rfl

@[simp] theorem ioError_poly (e : Err) (k : Config.IoErr) (s : State) :
    (ioError e k s).poly =
      s.poly := rfl

@[simp] theorem ioError_bitord (e : Err) (k : Config.IoErr) (s : State) :
    (ioError e k s).bitord =
      s.bitord := rfl

@[simp] theorem ioError_table (e : Err) (k : Config.IoErr) (s : State) :
    (ioError e k s).table =
      s.table := rfl

@[simp] theorem ioError_reg (e : Err) (k : Config.IoErr) (s : State) :
    (ioError e k s).reg =
      Config.drawReg s.drawSource s.draws := rfl

@[simp] theorem ioError_tbr (e : Err) (k : Config.IoErr) (s : State) :
    (ioError e k s).tbr =
      Config.drawTbr s.drawSource s.draws := rfl

@[simp] theorem ioError_busy (e : Err) (k : Config.IoErr) (s : State) :
    (ioError e k s).busy =
      false := rfl

@[simp] theorem ioError_err (e : Err) (k : Config.IoErr) (s : State) :
    (ioError e k s).err =
      errCode e := rfl

@[simp] theorem ioError_result (e : Err) (k : Config.IoErr) (s : State) :
    (ioError e k s).result =
      s.result := rfl

@[simp] theorem ioError_resultWritten (e : Err) (k : Config.IoErr) (s : State) :
    (ioError e k s).resultWritten =
      s.resultWritten := rfl

@[simp] theorem ioError_ioerr (e : Err) (k : Config.IoErr) (s : State) :
    (ioError e k s).ioerr =
      some k := rfl

@[simp] theorem ioError_strm (e : Err) (k : Config.IoErr) (s : State) :
    (ioError e k s).strm =
      .idle := rfl

@[simp] theorem ioError_chunkSize (e : Err) (k : Config.IoErr) (s : State) :
    (ioError e k s).chunkSize =
      s.chunkSize := rfl

@[simp] theorem ioError_inbox (e : Err) (k : Config.IoErr) (s : State) :
    (ioError e k s).inbox =
      s.inbox := rfl

@[simp] theorem ioError_outbox (e : Err) (k : Config.IoErr) (s : State) :
    (ioError e k s).outbox =
      s.outbox ++ [.completed (statusWord { s with err := errCode e, busy := false }) none (some k)] := rfl

@[simp] theorem ioError_drawSource (e : Err) (k : Config.IoErr) (s : State) :
    (ioError e k s).drawSource =
      s.drawSource := rfl

@[simp] theorem ioError_draws (e : Err) (k : Config.IoErr) (s : State) :
    (ioError e k s).draws =
      s.draws + 1 := rfl

/-! `hardwareReset` -/

@[simp] theorem hardwareReset_cfgValid (s : State) : (hardwareReset s).cfgValid = false := rfl

@[simp] theorem hardwareReset_poly (s : State) :
    (hardwareReset s).poly =
      Config.unspecPoly s.drawSource s.draws := rfl

@[simp] theorem hardwareReset_bitord (s : State) :
    (hardwareReset s).bitord =
      Config.unspecBitord s.drawSource s.draws := rfl

@[simp] theorem hardwareReset_table (s : State) :
    (hardwareReset s).table =
      Config.unspecTable s.drawSource s.draws := rfl

@[simp] theorem hardwareReset_reg (s : State) :
    (hardwareReset s).reg =
      Config.unspecReg s.drawSource s.draws := rfl

@[simp] theorem hardwareReset_tbr (s : State) :
    (hardwareReset s).tbr =
      Config.unspecTbr s.drawSource s.draws := rfl

@[simp] theorem hardwareReset_busy (s : State) : (hardwareReset s).busy = false := rfl

@[simp] theorem hardwareReset_err (s : State) : (hardwareReset s).err = 0#4 := rfl

@[simp] theorem hardwareReset_result (s : State) : (hardwareReset s).result = 0#64 := rfl

@[simp] theorem hardwareReset_resultWritten (s : State) :
    (hardwareReset s).resultWritten =
      false := rfl

@[simp] theorem hardwareReset_ioerr (s : State) : (hardwareReset s).ioerr = none := rfl

@[simp] theorem hardwareReset_strm (s : State) : (hardwareReset s).strm = .idle := rfl

@[simp] theorem hardwareReset_chunkSize (s : State) :
    (hardwareReset s).chunkSize =
      s.chunkSize := rfl

@[simp] theorem hardwareReset_inbox (s : State) : (hardwareReset s).inbox = s.inbox := rfl

@[simp] theorem hardwareReset_outbox (s : State) : (hardwareReset s).outbox = s.outbox := rfl

@[simp] theorem hardwareReset_drawSource (s : State) : (hardwareReset s).drawSource = s.drawSource := rfl

@[simp] theorem hardwareReset_draws (s : State) : (hardwareReset s).draws = s.draws + 1 := rfl

/-! `absorb` -/

@[simp] theorem absorb_cfgValid (d : List Byte) (s : State) :
    (absorb d s).cfgValid =
      s.cfgValid := rfl

@[simp] theorem absorb_poly (d : List Byte) (s : State) : (absorb d s).poly = s.poly := rfl

@[simp] theorem absorb_bitord (d : List Byte) (s : State) : (absorb d s).bitord = s.bitord := rfl

@[simp] theorem absorb_table (d : List Byte) (s : State) : (absorb d s).table = s.table := rfl

@[simp] theorem absorb_reg (d : List Byte) (s : State) :
    (absorb d s).reg =
      updateBlock s.table s.bitord s.reg d := rfl

@[simp] theorem absorb_tbr (d : List Byte) (s : State) :
    (absorb d s).tbr =
      s.tbr + BitVec.ofNat 64 d.length := rfl

@[simp] theorem absorb_busy (d : List Byte) (s : State) : (absorb d s).busy = s.busy := rfl

@[simp] theorem absorb_err (d : List Byte) (s : State) : (absorb d s).err = s.err := rfl

@[simp] theorem absorb_result (d : List Byte) (s : State) : (absorb d s).result = s.result := rfl

@[simp] theorem absorb_resultWritten (d : List Byte) (s : State) :
    (absorb d s).resultWritten =
      s.resultWritten := rfl

@[simp] theorem absorb_ioerr (d : List Byte) (s : State) : (absorb d s).ioerr = s.ioerr := rfl

@[simp] theorem absorb_strm (d : List Byte) (s : State) : (absorb d s).strm = s.strm := rfl

@[simp] theorem absorb_chunkSize (d : List Byte) (s : State) :
    (absorb d s).chunkSize =
      s.chunkSize := rfl

@[simp] theorem absorb_inbox (d : List Byte) (s : State) : (absorb d s).inbox = s.inbox := rfl

@[simp] theorem absorb_outbox (d : List Byte) (s : State) : (absorb d s).outbox = s.outbox := rfl

@[simp] theorem absorb_drawSource (d : List Byte) (s : State) : (absorb d s).drawSource = s.drawSource := rfl

@[simp] theorem absorb_draws (d : List Byte) (s : State) : (absorb d s).draws = s.draws := rfl

/-! `requestRead` -/

@[simp] theorem requestRead_cfgValid (sk : Bool) (s : State) :
    (requestRead sk s).cfgValid =
      s.cfgValid := rfl

@[simp] theorem requestRead_poly (sk : Bool) (s : State) : (requestRead sk s).poly = s.poly := rfl

@[simp] theorem requestRead_bitord (sk : Bool) (s : State) :
    (requestRead sk s).bitord =
      s.bitord := rfl

@[simp] theorem requestRead_table (sk : Bool) (s : State) :
    (requestRead sk s).table =
      s.table := rfl

@[simp] theorem requestRead_reg (sk : Bool) (s : State) : (requestRead sk s).reg = s.reg := rfl

@[simp] theorem requestRead_tbr (sk : Bool) (s : State) : (requestRead sk s).tbr = s.tbr := rfl

@[simp] theorem requestRead_busy (sk : Bool) (s : State) : (requestRead sk s).busy = s.busy := rfl

@[simp] theorem requestRead_err (sk : Bool) (s : State) : (requestRead sk s).err = s.err := rfl

@[simp] theorem requestRead_result (sk : Bool) (s : State) :
    (requestRead sk s).result =
      s.result := rfl

@[simp] theorem requestRead_resultWritten (sk : Bool) (s : State) :
    (requestRead sk s).resultWritten =
      s.resultWritten := rfl

@[simp] theorem requestRead_ioerr (sk : Bool) (s : State) :
    (requestRead sk s).ioerr =
      s.ioerr := rfl

@[simp] theorem requestRead_strm (sk : Bool) (s : State) :
    (requestRead sk s).strm =
      .awaitRead sk := rfl

@[simp] theorem requestRead_chunkSize (sk : Bool) (s : State) :
    (requestRead sk s).chunkSize =
      s.chunkSize := rfl

@[simp] theorem requestRead_inbox (sk : Bool) (s : State) :
    (requestRead sk s).inbox =
      s.inbox := rfl

@[simp] theorem requestRead_outbox (sk : Bool) (s : State) :
    (requestRead sk s).outbox =
      s.outbox ++ [.srcRead s.chunkSize] := rfl

@[simp] theorem requestRead_drawSource (sk : Bool) (s : State) :
    (requestRead sk s).drawSource =
      s.drawSource := rfl

@[simp] theorem requestRead_draws (sk : Bool) (s : State) :
    (requestRead sk s).draws =
      s.draws := rfl

/-! `requestWrite` -/

@[simp] theorem requestWrite_cfgValid (d : List Byte) (s : State) :
    (requestWrite d s).cfgValid =
      s.cfgValid := rfl

@[simp] theorem requestWrite_poly (d : List Byte) (s : State) :
    (requestWrite d s).poly =
      s.poly := rfl

@[simp] theorem requestWrite_bitord (d : List Byte) (s : State) :
    (requestWrite d s).bitord =
      s.bitord := rfl

@[simp] theorem requestWrite_table (d : List Byte) (s : State) :
    (requestWrite d s).table =
      s.table := rfl

@[simp] theorem requestWrite_reg (d : List Byte) (s : State) : (requestWrite d s).reg = s.reg := rfl

@[simp] theorem requestWrite_tbr (d : List Byte) (s : State) : (requestWrite d s).tbr = s.tbr := rfl

@[simp] theorem requestWrite_busy (d : List Byte) (s : State) :
    (requestWrite d s).busy =
      s.busy := rfl

@[simp] theorem requestWrite_err (d : List Byte) (s : State) : (requestWrite d s).err = s.err := rfl

@[simp] theorem requestWrite_result (d : List Byte) (s : State) :
    (requestWrite d s).result =
      s.result := rfl

@[simp] theorem requestWrite_resultWritten (d : List Byte) (s : State) :
    (requestWrite d s).resultWritten =
      s.resultWritten := rfl

@[simp] theorem requestWrite_ioerr (d : List Byte) (s : State) :
    (requestWrite d s).ioerr =
      s.ioerr := rfl

@[simp] theorem requestWrite_strm (d : List Byte) (s : State) :
    (requestWrite d s).strm =
      .awaitWrite d := rfl

@[simp] theorem requestWrite_chunkSize (d : List Byte) (s : State) :
    (requestWrite d s).chunkSize =
      s.chunkSize := rfl

@[simp] theorem requestWrite_inbox (d : List Byte) (s : State) :
    (requestWrite d s).inbox =
      s.inbox := rfl

@[simp] theorem requestWrite_outbox (d : List Byte) (s : State) :
    (requestWrite d s).outbox =
      s.outbox ++ [.sinkWrite d] := rfl

@[simp] theorem requestWrite_drawSource (d : List Byte) (s : State) :
    (requestWrite d s).drawSource =
      s.drawSource := rfl

@[simp] theorem requestWrite_draws (d : List Byte) (s : State) :
    (requestWrite d s).draws =
      s.draws := rfl

/-! `endStream` -/

@[simp] theorem endStream_cfgValid (s : State) : (endStream s).cfgValid = s.cfgValid := rfl

@[simp] theorem endStream_poly (s : State) : (endStream s).poly = s.poly := rfl

@[simp] theorem endStream_bitord (s : State) : (endStream s).bitord = s.bitord := rfl

@[simp] theorem endStream_table (s : State) : (endStream s).table = s.table := rfl

@[simp] theorem endStream_reg (s : State) : (endStream s).reg = s.reg := rfl

@[simp] theorem endStream_tbr (s : State) : (endStream s).tbr = s.tbr := rfl

@[simp] theorem endStream_busy (s : State) : (endStream s).busy = false := rfl

@[simp] theorem endStream_err (s : State) : (endStream s).err = errCode .ok := rfl

@[simp] theorem endStream_result (s : State) : (endStream s).result = zext64 (finalize s.reg) := rfl

@[simp] theorem endStream_resultWritten (s : State) : (endStream s).resultWritten = true := rfl

@[simp] theorem endStream_ioerr (s : State) : (endStream s).ioerr = s.ioerr := rfl

@[simp] theorem endStream_strm (s : State) : (endStream s).strm = .idle := rfl

@[simp] theorem endStream_chunkSize (s : State) : (endStream s).chunkSize = s.chunkSize := rfl

@[simp] theorem endStream_inbox (s : State) : (endStream s).inbox = s.inbox := rfl

@[simp] theorem endStream_outbox (s : State) :
    (endStream s).outbox =
      s.outbox ++ [.completed (statusWord { s with err := errCode .ok, busy := false }) (some (zext64 (finalize s.reg))) none] := rfl

@[simp] theorem endStream_drawSource (s : State) : (endStream s).drawSource = s.drawSource := rfl

@[simp] theorem endStream_draws (s : State) : (endStream s).draws = s.draws := rfl

end Sys2Proof.Machine
end

