-- ==== Sys2Proof/Laws/Ops.lean ====
section
/-! SUPPORT. What each shared operation can answer, said once. -/

namespace Sys2Proof.Machine

/-! The STATUS word. -/

theorem statusWord_toNat (s : State) : (statusWord s).toNat = s.err.toNat * 2 + s.busy.toNat := by
  have h : ∀ (err : BitVec 4) (busy : Bool),
      (0#27 ++ err ++ BitVec.ofBool busy).toNat = err.toNat * 2 + busy.toNat := by decide
  exact h s.err s.busy

theorem statusWord_idle {s : State} (h : s.busy = false) :
    statusWord s = s.err.setWidth 32 <<< 1 := by
  have hs : ∀ err : BitVec 4, 0#27 ++ err ++ BitVec.ofBool false = err.setWidth 32 <<< 1 := by
    decide
  rw [statusWord, h]
  exact hs s.err

/-! Completing and failing, as plain updates of a state that is not BUSY. -/

theorem complete_eq {s : State} (h : s.busy = false) :
    complete s = { s with err := 0#4, outbox := s.outbox ++ [.completed 0#32 none none] } := by
  simp [complete, emit, statusWord_idle, h, errCode]

theorem completeWith_eq {s : State} (v : DWord) (h : s.busy = false) :
    completeWith v s =
      { s with
        err := 0#4, result := v, resultWritten := true
        outbox := s.outbox ++ [.completed 0#32 (some v) none] } := by
  simp [completeWith, emit, statusWord_idle, h, errCode]

theorem raise_eq {s : State} (e : Err) (h : s.busy = false) :
    raise e s = failedWith (errCode e) s := by
  simp [raise, emit, failedWith, statusWord_idle, h]

/-! The checks: each answers its continuation, or one fixed thing. -/

theorem accept_next {s t : State} {k : Host.Outcome State Fault Refusal}
    (h : accept s k = .next t) : s.busy = false ∧ k = .next t := by
  unfold accept at h
  split at h
  · cases h
  · next hb => exact ⟨by simpa using hb, h⟩

theorem accept_ready {s : State} {k : Host.Outcome State Fault Refusal} (h : s.busy = false) :
    accept s k = k := by simp [accept, h]

theorem accept_busy {s : State} {k : Host.Outcome State Fault Refusal} (h : s.busy = true) :
    accept s k = .refused .commandWhileBusy := by simp [accept, h]

theorem configured_next {s t : State} {k : Host.Outcome State Fault Refusal}
    (h : configured s k = .next t) :
    (s.cfgValid = true ∧ k = .next t) ∨ (s.cfgValid = false ∧ t = raise .notConfigured s) := by
  unfold configured at h
  split at h
  · next hc => exact .inl ⟨hc, h⟩
  · next hc => cases h; exact .inr ⟨by simpa using hc, rfl⟩

theorem configured_valid {s : State} {k : Host.Outcome State Fault Refusal}
    (h : s.cfgValid = true) : configured s k = k := by simp [configured, h]

theorem configured_invalid {s : State} {k : Host.Outcome State Fault Refusal}
    (h : s.cfgValid = false) : configured s k = .next (raise .notConfigured s) := by
  simp [configured, h]

theorem present_next {p : Bool} {s t : State} {k : Host.Outcome State Fault Refusal}
    (h : present p s k = .next t) :
    (p = true ∧ k = .next t) ∨ (p = false ∧ t = raise .nullInput s) := by
  cases p
  · cases h; exact .inr ⟨rfl, rfl⟩
  · exact .inl ⟨rfl, h⟩

theorem withIndex_next {i : Word} {s t : State} {k : Byte → Host.Outcome State Fault Refusal}
    (h : withIndex i s k = .next t) :
    (i.toNat < 256 ∧ k (i.setWidth 8) = .next t) ∨
      (256 ≤ i.toNat ∧ t = raise .illegalOperand s) := by
  unfold withIndex at h
  split at h
  · next hi => exact .inl ⟨hi, h⟩
  · next hi => cases h; exact .inr ⟨by omega, rfl⟩

/-! The host's answers. -/

theorem answerRead_next {sk : Bool} {a : SourceAnswer} {s t : State}
    (h : answerRead sk a s = .next t) :
    (∃ e, a = .fail e ∧ t = ioError .ioRead e s) ∨
      (a = .data [] ∧ t = endStream s) ∨
      (∃ d, a = .data d ∧ d ≠ [] ∧ d.length ≤ s.chunkSize ∧
        ((sk = true ∧ t = requestWrite d s) ∨
          (sk = false ∧ t = requestRead false (absorb d s)))) := by
  cases a with
  | fail e => cases h; exact .inl ⟨e, rfl, rfl⟩
  | data d =>
    simp only [answerRead] at h
    split at h
    · cases h
    next hlen =>
    split at h
    next hd =>
      cases h
      simp only [List.isEmpty_iff] at hd
      exact .inr (.inl ⟨by rw [hd], rfl⟩)
    next hd =>
      have hd : d ≠ [] := by simpa using hd
      refine .inr (.inr ⟨d, rfl, hd, by omega, ?_⟩)
      cases sk
      · cases h; exact .inr ⟨rfl, rfl⟩
      · cases h; exact .inl ⟨rfl, rfl⟩

theorem answerWrite_next {d : List Byte} {a : SinkAnswer} {s t : State}
    (h : answerWrite d a s = .next t) :
    (∃ e, a = .fail e ∧ t = ioError .ioWrite e s) ∨
      (a = .ok ∧ t = requestRead true (absorb d s)) := by
  cases a with
  | fail e => cases h; exact .inl ⟨e, rfl, rfl⟩
  | ok => cases h; exact .inr ⟨rfl, rfl⟩

theorem onSourceAnswer_next {a : SourceAnswer} {s t : State}
    (h : onSourceAnswer a s = .next t) :
    ∃ sk, s.strm = .awaitRead sk ∧ answerRead sk a s = .next t := by
  unfold onSourceAnswer at h
  split at h
  · next sk hs => exact ⟨sk, hs, h⟩
  · cases h
  · cases h

theorem onSinkAnswer_next {a : SinkAnswer} {s t : State} (h : onSinkAnswer a s = .next t) :
    ∃ d, s.strm = .awaitWrite d ∧ answerWrite d a s = .next t := by
  unfold onSinkAnswer at h
  split at h
  · next d hs => exact ⟨d, hs, h⟩
  · cases h
  · cases h

/-- Everything a step can do: it waits, or the oldest input takes effect. -/
theorem step_cases (s : State) :
    (s.inbox = [] ∧ step s = .next s) ∨
      (∃ e rest, s.inbox = e :: rest ∧ step s = deliver e { s with inbox := rest }) := by
  cases h : s.inbox with
  | nil => exact .inl ⟨rfl, by simp [step, takeInput, h]⟩
  | cons e rest => exact .inr ⟨e, rest, rfl, by simp [step, takeInput, h]⟩

/-- Everything a transaction can do: it runs its command, or completes with ILLEGAL_COMMAND. -/
theorem issue_cases (t : Transaction) (s : State) :
    (∃ i, decode t = .ok i ∧ issue t s = exec i s) ∨
      (∃ e, decode t = .error e ∧
        issue t s = accept s (.next (raise .illegalCommand s))) := by
  cases h : decode t with
  | ok i => exact .inl ⟨i, rfl, by simp [issue, h]⟩
  | error e => exact .inr ⟨e, rfl, by simp [issue, h]⟩

end Sys2Proof.Machine
end

