-- ==== Sys2Proof/Laws/Datapath.lean ====
section
/-! SUPPORT. The small lemmas of the decoder, the datapaths, the Adler sums and runs. -/

namespace Sys2Proof

/-- Everything the decoder can answer. -/
theorem decode_cases (t : Transaction) :
    (∃ r ∈ rows, r.matches t.cmd = true ∧ decode t = .ok (assemble r.name t)) ∨
      ((∀ r ∈ rows, r.matches t.cmd = false) ∧ ∃ e, decode t = .error e) := by
  cases hf : rows.find? (·.matches t.cmd) with
  | some r =>
    have hm : r.matches t.cmd = true := List.find?_some (p := fun r : Row => r.matches t.cmd) hf
    exact .inl ⟨r, List.mem_of_find?_eq_some hf, hm, by simp [decode, hf]⟩
  | none =>
    exact .inr ⟨fun r hr => by simpa using List.find?_eq_none.mp hf r hr, _,
      by simp only [decode, hf]; rfl⟩

end Sys2Proof

namespace Sys2Proof.Machine

/-! The CRC datapaths. -/

theorem lookup_buildTable (poly : Word) (bo : BitOrder) (j : Byte) :
    lookup (buildTable poly bo) j = tableEntry poly bo j := by simp [lookup, buildTable]

theorem divStep_xor (poly a b : Word) :
    divStep poly (a ^^^ b) = divStep poly a ^^^ divStep poly b := by
  unfold divStep
  rw [BitVec.getLsbD_xor, BitVec.ushiftRight_xor_distrib]
  cases a.getLsbD 0 <;> cases b.getLsbD 0 <;> simp <;> ac_nf; simp

theorem iterate_xor {f : Word → Word} (h : ∀ a b, f (a ^^^ b) = f a ^^^ f b) (n : Nat)
    (a b : Word) : f^[n] (a ^^^ b) = f^[n] a ^^^ f^[n] b := by
  induction n generalizing a b with
  | zero => rfl
  | succ n ih => simp only [Function.iterate_succ, Function.comp, h, ih]

theorem div8_xor (poly : Word) (a b : Byte) : div8 (a ^^^ b) poly = div8 a poly ^^^ div8 b poly := by
  simp only [div8, BitVec.setWidth_xor]
  exact iterate_xor (divStep_xor poly) 8 _ _

theorem updateBlock_nil (T : Vector Word 256) (bo : BitOrder) (r : Word) :
    updateBlock T bo r [] = r := rfl

theorem updateBlock_append (T : Vector Word 256) (bo : BitOrder) (r : Word) (a b : List Byte) :
    updateBlock T bo r (a ++ b) = updateBlock T bo (updateBlock T bo r a) b := List.foldl_append

theorem updateBlock_replicate (T : Vector Word 256) (bo : BitOrder) (b : Byte) (n : Nat) (r : Word) :
    updateBlock T bo r (List.replicate n b) = (fun r => updateByte T bo r b)^[n] r := by
  induction n generalizing r with
  | zero => rfl
  | succ n ih => rw [Function.iterate_succ_apply, ← ih]; rfl

theorem absorb_tbr_toNat (d : List Byte) (s : State) :
    (absorb d s).tbr = BitVec.ofNat 64 (s.tbr.toNat + d.length) := by
  apply BitVec.eq_of_toNat_eq
  simp [absorb, BitVec.toNat_add]

/-! The Adler sums. -/

theorem adlerReduce_lt (acc : Nat × Nat) :
    (adlerReduce acc).1 < 65521 ∧ (adlerReduce acc).2 < 65521 :=
  ⟨Nat.mod_lt _ (by decide), Nat.mod_lt _ (by decide)⟩

theorem adlerReduce_adlerReduce (acc : Nat × Nat) :
    adlerReduce (adlerReduce acc) = adlerReduce acc := by simp [adlerReduce]

theorem adlerReduce_adlerStep {acc acc' : Nat × Nat} (b : Byte)
    (h : adlerReduce acc = adlerReduce acc') :
    adlerReduce (adlerStep acc b) = adlerReduce (adlerStep acc' b) := by
  simp only [adlerReduce, adlerStep, Config.adlerBase, Prod.mk.injEq] at *
  omega

theorem adlerReduce_adlerBlock (d : List Byte) {acc acc' : Nat × Nat}
    (h : adlerReduce acc = adlerReduce acc') :
    adlerReduce (adlerBlock acc d) = adlerReduce (adlerBlock acc' d) := by
  induction d generalizing acc acc' with
  | nil => exact h
  | cons b d ih => exact ih (adlerReduce_adlerStep b h)

theorem adlerBlock_append (acc : Nat × Nat) (a b : List Byte) :
    adlerBlock acc (a ++ b) = adlerBlock (adlerBlock acc a) b := List.foldl_append

/-- One round of the loop: the next sub-block of at most NMAX bytes, then a reduction. -/
theorem adlerLoop_succ {d : List Byte} (fuel : Nat) (acc : Nat × Nat) (h : d ≠ []) :
    adlerLoop (fuel + 1) acc d =
      adlerLoop fuel (adlerReduce (adlerBlock acc (d.take Config.nmax))) (d.drop Config.nmax) := by
  rw [adlerLoop, if_neg (by simpa using h)]

theorem adlerLoop_nil (fuel : Nat) (acc : Nat × Nat) : adlerLoop fuel acc [] = acc := by
  cases fuel <;> simp [adlerLoop]

/-! Runs. -/

theorem runInputs_cons {e : Input} {es : List Input} {s t : State}
    (h : deliver e { s with inbox := [] } = .next t) : runInputs (e :: es) s = runInputs es t := by
  rw [runInputs, show step { s with inbox := [e] } = .next t from h]

theorem sinkBytes_append (a b : List Output) : sinkBytes (a ++ b) = sinkBytes a ++ sinkBytes b := by
  induction a with
  | nil => rfl
  | cons o a ih => cases o <;> simp [sinkBytes, ih]

end Sys2Proof.Machine
end

