-- ==== Sys2Proof/Laws/Exec.lean ====
section
/-! SUPPORT. What each meaning answers when it answers a next state: one inversion lemma each. -/

namespace Sys2Proof.Machine

theorem execNewCrc_next {bo : BitOrder} {poly : Word} {s t : State}
    (h : execNewCrc bo poly s = .next t) :
    s.busy = false ∧ t = complete
      { s with
        poly := poly, bitord := bo, table := buildTable poly bo
        reg := Config.regInit, tbr := 0#64, cfgValid := true } := by
  obtain ⟨hb, h⟩ := accept_next h
  cases h
  exact ⟨hb, rfl⟩

theorem execReset_next {s t : State} (h : execReset s = .next t) :
    s.busy = false ∧
      ((s.cfgValid = true ∧ t = complete { s with reg := Config.regInit, tbr := 0#64 }) ∨
        (s.cfgValid = false ∧ t = raise .notConfigured s)) := by
  obtain ⟨hb, h⟩ := accept_next h
  refine ⟨hb, (configured_next h).imp_left ?_⟩
  rintro ⟨hc, h⟩
  cases h
  exact ⟨hc, rfl⟩

theorem execUpdateByte_next {b : Byte} {s t : State} (h : execUpdateByte b s = .next t) :
    s.busy = false ∧
      ((s.cfgValid = true ∧
          t = complete { s with reg := updateByte s.table s.bitord s.reg b }) ∨
        (s.cfgValid = false ∧ t = raise .notConfigured s)) := by
  obtain ⟨hb, h⟩ := accept_next h
  refine ⟨hb, (configured_next h).imp_left ?_⟩
  rintro ⟨hc, h⟩
  cases h
  exact ⟨hc, rfl⟩

theorem execUpdateRepeat_next {b : Byte} {n : Word} {s t : State}
    (h : execUpdateRepeat b n s = .next t) :
    s.busy = false ∧
      ((s.cfgValid = true ∧
          t = complete
            { s with reg := (fun r => updateByte s.table s.bitord r b)^[n.toNat] s.reg }) ∨
        (s.cfgValid = false ∧ t = raise .notConfigured s)) := by
  obtain ⟨hb, h⟩ := accept_next h
  refine ⟨hb, (configured_next h).imp_left ?_⟩
  rintro ⟨hc, h⟩
  cases h
  exact ⟨hc, rfl⟩

theorem execUpdate_next {p : Bool} {buf : List Byte} {s t : State}
    (h : execUpdate p buf s = .next t) :
    s.busy = false ∧
      ((s.cfgValid = true ∧
          ((p = true ∧ t = complete (absorb buf s)) ∨ (p = false ∧ t = raise .nullInput s))) ∨
        (s.cfgValid = false ∧ t = raise .notConfigured s)) := by
  obtain ⟨hb, h⟩ := accept_next h
  refine ⟨hb, (configured_next h).imp_left ?_⟩
  rintro ⟨hc, h⟩
  refine ⟨hc, (present_next h).imp_left ?_⟩
  rintro ⟨hp, h⟩
  cases h
  exact ⟨hp, rfl⟩

theorem execChecksumStream_next {p sk : Bool} {s t : State}
    (h : execChecksumStream p sk s = .next t) :
    s.busy = false ∧
      ((s.cfgValid = true ∧
          ((p = true ∧ t = requestRead sk { s with tbr := 0#64, busy := true }) ∨
            (p = false ∧ t = raise .nullInput s))) ∨
        (s.cfgValid = false ∧ t = raise .notConfigured s)) := by
  obtain ⟨hb, h⟩ := accept_next h
  refine ⟨hb, (configured_next h).imp_left ?_⟩
  rintro ⟨hc, h⟩
  refine ⟨hc, (present_next h).imp_left ?_⟩
  rintro ⟨hp, h⟩
  cases h
  exact ⟨hp, rfl⟩

theorem execReadCrc_next {s t : State} (h : execReadCrc s = .next t) :
    s.busy = false ∧
      ((s.cfgValid = true ∧ t = completeWith (zext64 (finalize s.reg)) s) ∨
        (s.cfgValid = false ∧ t = raise .notConfigured s)) := by
  obtain ⟨hb, h⟩ := accept_next h
  refine ⟨hb, (configured_next h).imp_left ?_⟩
  rintro ⟨hc, h⟩
  cases h
  exact ⟨hc, rfl⟩

theorem execReadCount_next {s t : State} (h : execReadCount s = .next t) :
    s.busy = false ∧
      ((s.cfgValid = true ∧ t = completeWith s.tbr s) ∨
        (s.cfgValid = false ∧ t = raise .notConfigured s)) := by
  obtain ⟨hb, h⟩ := accept_next h
  refine ⟨hb, (configured_next h).imp_left ?_⟩
  rintro ⟨hc, h⟩
  cases h
  exact ⟨hc, rfl⟩

theorem execReadTable_next {i : Word} {s t : State} (h : execReadTable i s = .next t) :
    s.busy = false ∧
      ((s.cfgValid = true ∧
          ((i.toNat < 256 ∧ t = completeWith (zext64 (lookup s.table (i.setWidth 8))) s) ∨
            (256 ≤ i.toNat ∧ t = raise .illegalOperand s))) ∨
        (s.cfgValid = false ∧ t = raise .notConfigured s)) := by
  obtain ⟨hb, h⟩ := accept_next h
  refine ⟨hb, (configured_next h).imp_left ?_⟩
  rintro ⟨hc, h⟩
  refine ⟨hc, (withIndex_next h).imp_left ?_⟩
  rintro ⟨hi, h⟩
  cases h
  exact ⟨hi, rfl⟩

theorem execCombine_next {crcA crcB lenB lenA : Word} {s t : State}
    (h : execCombine crcA crcB lenB lenA s = .next t) :
    s.busy = false ∧
      ((s.cfgValid = true ∧
          t = completeWith (zext64 (combined s.table s.bitord crcA crcB lenB))
            { s with reg := finalize (combined s.table s.bitord crcA crcB lenB) }) ∨
        (s.cfgValid = false ∧ t = raise .notConfigured s)) := by
  obtain ⟨hb, h⟩ := accept_next h
  refine ⟨hb, (configured_next h).imp_left ?_⟩
  rintro ⟨hc, h⟩
  cases h
  exact ⟨hc, rfl⟩

theorem execAdler32_next {seed : Word} {p : Bool} {buf : List Byte} {s t : State}
    (h : execAdler32 seed p buf s = .next t) :
    s.busy = false ∧ t = completeWith (zext64 (adlerValue seed p buf)) s := by
  obtain ⟨hb, h⟩ := accept_next h
  cases h
  exact ⟨hb, rfl⟩

/-- A command that is given while BUSY has no step, whatever it is. -/
theorem exec_busy (i : Instr) {s : State} (h : s.busy = true) :
    exec i s = .refused .commandWhileBusy := by
  cases i <;> exact accept_busy h

/-- A CRC-unit command answers something once its continuation does. -/
theorem configured_answers {s : State} {k : Host.Outcome State Fault Refusal}
    (hk : ∃ t, k = .next t) : ∃ t, configured s k = .next t := by
  unfold configured
  split
  · exact hk
  · exact ⟨_, rfl⟩

/-- A command with a required input answers something once its continuation does. -/
theorem present_answers {p : Bool} {s : State} {k : Host.Outcome State Fault Refusal}
    (hk : ∃ t, k = .next t) : ∃ t, present p s k = .next t := by
  unfold present
  split
  · exact hk
  · exact ⟨_, rfl⟩

/-- Every command given while not BUSY answers a next state. -/
theorem exec_idle (i : Instr) {s : State} (h : s.busy = false) : ∃ t, exec i s = .next t := by
  have ha : ∀ k : Host.Outcome State Fault Refusal, (∃ t, k = .next t) →
      ∃ t, accept s k = .next t := fun k hk => by rwa [accept_ready h]
  cases i with
  | newCrc bo poly => exact ha _ ⟨_, rfl⟩
  | adler32 seed p buf => exact ha _ ⟨_, rfl⟩
  | update p buf => exact ha _ (configured_answers (present_answers ⟨_, rfl⟩))
  | checksumStream p sk => exact ha _ (configured_answers (present_answers ⟨_, rfl⟩))
  | readTable index =>
    refine ha _ (configured_answers ?_)
    unfold withIndex
    split <;> exact ⟨_, rfl⟩
  | reset => exact ha _ (configured_answers ⟨_, rfl⟩)
  | updateByte b => exact ha _ (configured_answers ⟨_, rfl⟩)
  | updateRepeat b n => exact ha _ (configured_answers ⟨_, rfl⟩)
  | readCrc => exact ha _ (configured_answers ⟨_, rfl⟩)
  | readCount => exact ha _ (configured_answers ⟨_, rfl⟩)
  | combine crcA crcB lenB lenA => exact ha _ (configured_answers ⟨_, rfl⟩)

end Sys2Proof.Machine
end

