-- ==== Sys2Proof/Laws/PerInstr.lean ====
section
/-! SUPPORT. A statement about each command as syntax: the command word `encode` gives it matches the
row of its own mnemonic (30_encoding.md R58). -/

namespace Sys2Proof.Laws.RowWord

/-- The command word of `i` matches the row of its mnemonic. -/
def Statement (i : Instr) : Prop :=
  ∃ r, r ∈ rows ∧ r.name = i.mnemonic ∧ r.matches (encode i).cmd = true

theorem newCrc (bo : BitOrder) (poly : Word) : Statement (.newCrc bo poly) :=
  ⟨⟨.newCrc, 0xFFFBFFFF#32, 0x00000001#32⟩, by simp [rows], rfl, by
    cases bo <;> simp [Row.matches, encode, boBits]⟩

theorem reset : Statement .reset :=
  ⟨⟨.reset, 0xFFFFFFFF#32, 0x00000002#32⟩, by simp [rows], rfl, rfl⟩

theorem updateByte (b : Byte) : Statement (.updateByte b) :=
  ⟨⟨.updateByte, 0xFFFF00FF#32, 0x00000003#32⟩, by simp [rows], rfl, by revert b; decide +kernel⟩

theorem updateRepeat (b : Byte) (n : Word) : Statement (.updateRepeat b n) :=
  ⟨⟨.updateRepeat, 0xFFFF00FF#32, 0x00000004#32⟩, by simp [rows], rfl, by
    show (⟨.updateRepeat, 0xFFFF00FF#32, 0x00000004#32⟩ : Row).matches
      (0x00000004#32 ||| byteBits b) = true
    revert b; decide +kernel⟩

theorem update (p : Bool) (buf : List Byte) : Statement (.update p buf) :=
  ⟨⟨.update, 0xFFFEFFFF#32, 0x00000005#32⟩, by simp [rows], rfl, by
    cases p <;> simp [Row.matches, encode, pBits]⟩

theorem checksumStream (p sk : Bool) : Statement (.checksumStream p sk) :=
  ⟨⟨.checksumStream, 0xFFFCFFFF#32, 0x00000006#32⟩, by simp [rows], rfl, by
    cases p <;> cases sk <;> rfl⟩

theorem readCrc : Statement .readCrc :=
  ⟨⟨.readCrc, 0xFFFFFFFF#32, 0x00000007#32⟩, by simp [rows], rfl, rfl⟩

theorem readCount : Statement .readCount :=
  ⟨⟨.readCount, 0xFFFFFFFF#32, 0x00000008#32⟩, by simp [rows], rfl, rfl⟩

theorem readTable (index : Word) : Statement (.readTable index) :=
  ⟨⟨.readTable, 0xFFFFFFFF#32, 0x00000009#32⟩, by simp [rows], rfl, by
    simp [Row.matches, encode]⟩

theorem combine (crcA crcB lenB lenA : Word) : Statement (.combine crcA crcB lenB lenA) :=
  ⟨⟨.combine, 0xFFFFFFFF#32, 0x0000000A#32⟩, by simp [rows], rfl, by
    simp [Row.matches, encode]⟩

theorem adler32 (seed : Word) (p : Bool) (buf : List Byte) : Statement (.adler32 seed p buf) :=
  ⟨⟨.adler32, 0xFFFEFFFF#32, 0x0000000B#32⟩, by simp [rows], rfl, by
    cases p <;> simp [Row.matches, encode, pBits]⟩

end Sys2Proof.Laws.RowWord
end

