-- ==== Sys2Proof/Tests/Slice0.lean ====
section
/-! SUPPORT. Tests of the model: expected values are the vectors of 95_test_vectors.md and the examples
of the rules; and a witness for the hypotheses of each statement. -/

namespace Sys2Proof.Tests

-- The theorems are checked one after another, so that few threads stand at once.
set_option Elab.async false

open Sys2Proof Sys2Proof.Machine

/-! ## Small states -/

/-- The next state of an outcome, if there is one. -/
def nextOf : Host.Outcome State Fault Refusal → Option State
  | .next t => some t
  | .fault _ => none
  | .refused _ => none

/-- The refusal of an outcome, if there is one. -/
def refusalOf : Host.Outcome State Fault Refusal → Option Refusal
  | .next _ => none
  | .fault _ => none
  | .refused r => some r

/-- The engine of `NEW_CRC 0xEDB88320, NORMAL` or `REFLECTED`, fresh. -/
def engine (bo : BitOrder) : State :=
  { State.reset with
    cfgValid := true, poly := 0xEDB88320#32, bitord := bo
    table := buildTable 0xEDB88320#32 bo, reg := 0xFFFFFFFF#32 }

/-- The same engine waiting for a source answer, or for a sink answer. -/
def streaming (st : Strm) : State := { engine .normal with busy := true, strm := st }

/-- The ASCII bytes "123456789". -/
def digits : List Byte := [0x31, 0x32, 0x33, 0x34, 0x35, 0x36, 0x37, 0x38, 0x39]

/-! ## Well-formedness: each check refuses an ill-formed term -/

theorem test_wf_update_absent_buffer_with_bytes :
    Instr.wellFormed (.update false [0x31#8]) = false := by decide

theorem test_wf_adler32_absent_buffer_with_bytes :
    Instr.wellFormed (.adler32 1#32 false [0x31#8]) = false := by decide

theorem test_wf_empty_present_buffer : Instr.wellFormed (.update true []) = true := by decide

/-! ## Decoding: words written out from 30_encoding.md R58 and R66, and 95_test_vectors.md V-D1 -/

theorem test_decode_newCrc :
    decode { cmd := 0x00040001#32, opa := 0xEDB88320#32 } = .ok (.newCrc .reflected 0xEDB88320#32) ∧
    decode { cmd := 0x00000001#32, opa := 5#32 } = .ok (.newCrc .normal 5#32) := by decide

theorem test_decode_reset : decode { cmd := 0x00000002#32, opa := 7#32 } = .ok .reset := by decide

theorem test_decode_updateByte : decode { cmd := 0x00003103#32 } = .ok (.updateByte 0x31#8) := by
  decide

theorem test_decode_updateRepeat :
    decode { cmd := 0x0000FF04#32, opa := 3#32 } = .ok (.updateRepeat 0xFF#8 3#32) := by decide

theorem test_decode_update :
    decode { cmd := 0x00010005#32, buf := [0x61#8] } = .ok (.update true [0x61#8]) ∧
    decode { cmd := 0x00000005#32, buf := [0x61#8] } = .ok (.update false []) := by decide

theorem test_decode_checksumStream :
    decode { cmd := 0x00030006#32 } = .ok (.checksumStream true true) ∧
    decode { cmd := 0x00020006#32 } = .ok (.checksumStream false true) := by decide

theorem test_decode_readCrc : decode { cmd := 0x00000007#32 } = .ok .readCrc := by decide

theorem test_decode_readCount : decode { cmd := 0x00000008#32 } = .ok .readCount := by decide

theorem test_decode_readTable :
    decode { cmd := 0x00000009#32, opa := 0x80#32 } = .ok (.readTable 0x80#32) := by decide

theorem test_decode_combine :
    decode { cmd := 0x0000000A#32, opa := 1#32, opb := 2#32, opc := 3#32, opd := 4#32 } =
      .ok (.combine 1#32 2#32 3#32 4#32) := by decide

theorem test_decode_adler32 :
    decode { cmd := 0x0001000B#32, opa := 1#32, buf := [0x61#8] } =
      .ok (.adler32 1#32 true [0x61#8]) := by decide

/-- V-D1: the illegal words. -/
theorem test_decode_illegal :
    decode { cmd := 0x00000000#32 } = .error .reservedOpcode ∧
    decode { cmd := 0x0000000C#32 } = .error .reservedOpcode ∧
    decode { cmd := 0x00000101#32 } = .error .forbiddenBit ∧
    decode { cmd := 0x00040002#32 } = .error .forbiddenBit ∧
    decode { cmd := 0x00013103#32 } = .error .forbiddenBit ∧
    decode { cmd := 0x00000017#32 } = .error .forbiddenBit ∧
    decode { cmd := 0x80000007#32 } = .error .forbiddenBit ∧
    decode { cmd := 0x0002000B#32 } = .error .forbiddenBit := by decide

theorem test_decodeTableWord_operand_bits_are_zero :
    decodeTableWord 32 0x0000000A = some (.combine 0#32 0#32 0#32 0#32) := by decide

/-! ## Host reads -/

/-- R31, U12: a read of RESULT right after reset is answered by the signal and no value. -/
theorem test_readResult_after_reset :
    (nextOf (step { State.reset with inbox := [.readResult] })).map State.outbox =
      some [.resultUnwritten] := rfl

/-! ## The functions -/

/-- V-T1. -/
theorem test_rev32 :
    rev32 0xEDB88320#32 = 0x04C11DB7#32 ∧ rev32 0x12345678#32 = 0x1E6A2C48#32 := by decide

/-- V-T2. -/
theorem test_rev8 : rev8 0x31#8 = 0x8C#8 ∧ rev8 0xF0#8 = 0x0F#8 := by decide

/-- V-T3. -/
theorem test_table_normal :
    lookup (buildTable 0xEDB88320#32 .normal) 0x31#8 = 0x51DE003A#32 ∧
    lookup (buildTable 0xEDB88320#32 .normal) 0xFF#8 = 0x2D02EF8D#32 := by decide +kernel

/-- V-T3. -/
theorem test_table_reflected :
    lookup (buildTable 0xEDB88320#32 .reflected) 0x8C#8 = 0x5C007B8A#32 ∧
    lookup (buildTable 0x82F63B78#32 .reflected) 0xFF#8 = 0x8ACABEB5#32 := by decide +kernel

/-- V-S1. -/
theorem test_updateByte_single_steps :
    updateByte (buildTable 0xEDB88320#32 .normal) .normal 0x12345678#32 0xAB#8 = 0x1FC8B738#32 ∧
    updateByte (buildTable 0xEDB88320#32 .reflected) .reflected 0x12345678#32 0xAB#8 =
      0xABA10571#32 := by decide +kernel

/-- V-S2, V-S3. -/
theorem test_crc_of_digits :
    crc 0xEDB88320#32 .normal digits = 0xCBF43926#32 ∧
    crc 0xEDB88320#32 .reflected digits = 0xFC891918#32 := by decide +kernel

/-- V-C1. -/
theorem test_zeroMatrix :
    (zeroMatrix (buildTable 0xEDB88320#32 .normal) .normal)[7] = 0xEDB88320#32 ∧
    (zeroMatrix (buildTable 0xEDB88320#32 .reflected) .reflected)[30] = 0x34867077#32 := by
  decide +kernel

/-- V-C2. -/
theorem test_gf2Square :
    (gf2Square (zeroMatrix (buildTable 0xEDB88320#32 .normal) .normal))[7] = 0x3B83984B#32 := by
  decide +kernel

/-- V-C3. -/
theorem test_zeros :
    zeros (buildTable 0xEDB88320#32 .normal) .normal 0x80000000#32 4#32 = 0xEDB88320#32 := by
  decide +kernel

/-- V-A1: an unreduced seed, and a first sum that reaches 65521. -/
theorem test_adler32_reduction :
    adler32 0xFFFFFFFF#32 [0x00#8] = 0x001C000E#32 ∧
    adler32 0xFFF0FFF0#32 [0x01#8] = 0xFFF00000#32 := by decide +kernel

/-- V-A1: 5552 and 5553 bytes 0xFF, one sub-block and two. -/
theorem test_adler32_subblocks :
    adler32 1#32 (List.replicate 5552 0xFF#8) = 0xF18F9B8C#32 ∧
    adler32 1#32 (List.replicate 5553 0xFF#8) = 0x8E299C8B#32 := by decide +kernel

/-! ## The commands, one step each -/

/-- R77's example. -/
theorem test_newCrc :
    (nextOf (exec (.newCrc .normal 0xEDB88320#32) State.reset)).map
      (fun t => (lookup t.table 0x01#8, t.reg, t.tbr, t.cfgValid)) =
      some (0x77073096#32, 0xFFFFFFFF#32, 0#64, true) := by decide +kernel

/-- R95. -/
theorem test_reset :
    (nextOf (exec .reset { engine .normal with reg := 5#32, tbr := 9#64 })).map
      (fun t => (t.reg, t.tbr, t.err)) = some (0xFFFFFFFF#32, 0#64, 0#4) := by decide +kernel

/-- R92's example; TBR is not changed. -/
theorem test_updateByte :
    (nextOf (exec (.updateByte 0x31#8) (engine .normal))).map (fun t => (t.reg, t.tbr)) =
      some (0x7C231048#32, 0#64) := by decide +kernel

/-- V-S5. -/
theorem test_updateRepeat :
    (nextOf (exec (.updateRepeat 0x00#8 4#32) (engine .normal))).map (fun t => (t.reg, t.tbr)) =
      some (0xDEBB20E3#32, 0#64) := by decide +kernel

/-- R94's example. -/
theorem test_update :
    (nextOf (exec (.update true digits) (engine .normal))).map (fun t => (t.reg, t.tbr)) =
      some (0x340BC6D9#32, 9#64) := by decide +kernel

/-- V-X1: UPDATE before NEW_CRC, and UPDATE NULL. -/
theorem test_update_errors :
    (nextOf (exec (.update true [0x61#8]) State.reset)).map State.err = some 5#4 ∧
    (nextOf (exec (.update false []) (engine .normal))).map State.err = some 1#4 := by
  decide +kernel

/-- R98: TBR is cleared, REG is not, SrcRead(8192) is issued. -/
theorem test_checksumStream_start :
    (nextOf (exec (.checksumStream true true) { engine .normal with tbr := 7#64 })).map
      (fun t => (t.tbr, t.reg, t.busy, t.strm, t.outbox)) =
      some (0#64, 0xFFFFFFFF#32, true, .awaitRead true, [.srcRead 8192]) := by decide +kernel

/-- PR3, exchange 2 (with the Normal table, V-S2): the sink's Ok absorbs "12345". -/
theorem test_checksumStream_sink_ok :
    (nextOf (deliver (.sinkAnswer .ok)
      (streaming (.awaitWrite [0x31#8, 0x32#8, 0x33#8, 0x34#8, 0x35#8])))).map
      (fun t => (t.reg, t.tbr, t.strm)) = some (0x340AC5E3#32, 5#64, .awaitRead true) := by
  decide +kernel

/-- R96's example. -/
theorem test_readCrc :
    (nextOf (exec .readCrc { engine .normal with reg := 0x340BC6D9#32 })).map
      (fun t => (t.result, t.reg)) = some (0x00000000CBF43926#64, 0x340BC6D9#32) := by decide +kernel

/-- R104: all 64 bits. -/
theorem test_readCount :
    (nextOf (exec .readCount { engine .normal with tbr := 0xFFFFFFFF00000009#64 })).map State.result =
      some 0xFFFFFFFF00000009#64 := by decide +kernel

/-- R78's example. -/
theorem test_readTable :
    (nextOf (exec (.readTable 1#32) (engine .reflected))).map State.result =
      some 0x0000000004C11DB7#64 := by decide +kernel

/-- V-X1: index 255 and index 256. -/
theorem test_readTable_bounds :
    (nextOf (exec (.readTable 255#32) (engine .normal))).map (fun t => (t.err, t.result)) =
      some (0#4, 0x2D02EF8D#64) ∧
    (nextOf (exec (.readTable 256#32) (engine .normal))).map (fun t => (t.err, t.resultWritten)) =
      some (6#4, false) := by decide +kernel

/-- V-C5: "1234" and "56789". -/
theorem test_combine :
    (nextOf (exec (.combine 0x9BE3E0A3#32 0x131DA070#32 5#32 4#32) (engine .normal))).map
      (fun t => (t.result, t.reg)) = some (0xCBF43926#64, 0x340BC6D9#32) := by decide +kernel

/-- V-C5: the Reflected row, with a length that is no power of two. -/
theorem test_combine_reflected :
    (nextOf (exec (.combine 0x081C0AB0#32 0x3B195E68#32 23#32 20#32) (engine .reflected))).map
      (fun t => (t.result, t.reg)) = some (0x459DEE61#64, 0xBA62119E#32) := by decide +kernel

/-- R132's example, before any NEW_CRC. -/
theorem test_adler32 :
    (nextOf (exec (.adler32 1#32 true digits) State.reset)).map (fun t => (t.err, t.result)) =
      some (0#4, 0x091E01DE#64) := by decide +kernel

/-- V-A1: an absent buffer gives 1. -/
theorem test_adler32_absent :
    (nextOf (exec (.adler32 0x12345678#32 false []) State.reset)).map State.result =
      some 1#64 := by decide +kernel

/-! ## Steps -/

/-- V-X1: an illegal word comes before NOT_CONFIGURED. -/
theorem test_step_illegal_word :
    (nextOf (step (State.reset.withFetchWord 32 0x00013103))).map
      (fun t => (t.err, t.inbox, t.outbox)) = some (4#4, [], [.completed 8#32 none none]) := by
  decide +kernel

/-- The first instruction after reset runs. -/
theorem test_step_first_word :
    (nextOf (step (State.reset.withFetchWord 32 0x00040001))).map
      (fun t => (t.cfgValid, t.bitord, t.reg)) = some (true, .reflected, 0xFFFFFFFF#32) := by
  decide +kernel

/-- R160: a command while BUSY has no step. -/
theorem test_busy_refuses :
    refusalOf (deliver (.command (encode .readCrc)) (streaming (.awaitRead false))) =
      some .commandWhileBusy := by decide +kernel

/-- R161: 8192 bytes are taken, 8193 have no step. -/
theorem test_answer_length_bounds :
    refusalOf (deliver (.sourceAnswer (.data (List.replicate 8193 0#8)))
      (streaming (.awaitRead true))) = some .oversizeAnswer ∧
    (nextOf (deliver (.sourceAnswer (.data (List.replicate 8192 0#8)))
      (streaming (.awaitRead true)))).isSome = true := by decide +kernel

/-- R102: IO_READ ends the stream and records the token. -/
theorem test_io_read_error :
    (nextOf (deliver (.sourceAnswer (.fail 77)) (streaming (.awaitRead false)))).map
      (fun t => (t.err, t.ioerr, t.busy, t.strm)) = some (2#4, some 77, false, .idle) := by
  decide +kernel

/-! ## Witnesses: the hypotheses of each statement hold together of some state and operands -/

theorem engine_ready (bo : BitOrder) : Ready (engine bo) := ⟨rfl, rfl⟩

theorem engine_inv (bo : BitOrder) : StateInv (engine bo) where
  table := fun _ => rfl
  busy := by simp [engine, State.reset]
  err := by simp [engine, State.reset]
  chunk := by simp [engine, State.reset]
  engine := by simp [engine, State.reset]
  chunkSize := by simp [engine, State.reset, Config.chunkSizeDefault]

theorem witness_DecodeOfEncode :
    Instr.wellFormed (.update true [0x31#8]) = true ∧ Instr.wellFormed (.update false []) = true := by
  decide

theorem witness_DecodedWordIsTheEncodedWord :
    decode { cmd := 0x0000FF04#32, opa := 3#32 } = .ok (.updateRepeat 0xFF#8 3#32) := by decide

theorem witness_AtMostOneRowMatches :
    (⟨.updateByte, 0xFFFF00FF#32, 0x00000003#32⟩ : Row) ∈ rows ∧
    (⟨.updateByte, 0xFFFF00FF#32, 0x00000003#32⟩ : Row).matches 0x00003103#32 = true ∧
    (∀ r ∈ rows, r.matches 0x00013103#32 = false) := by decide

theorem witness_StepRunsTheDecodedCommand :
    ({ State.reset with inbox := [.command { cmd := 0x00000002#32 }] } : State).inbox =
      .command { cmd := 0x00000002#32 } :: [] ∧
    decode { cmd := 0x00000002#32 } = .ok .reset ∧
    decodeTableWord 32 2 = some .reset := by decide

theorem witness_CommandWhileBusyHasNoStep : (streaming (.awaitRead false)).busy = true := rfl

theorem witness_ResultRead :
    State.reset.resultWritten = false ∧
    ({ State.reset with resultWritten := true } : State).resultWritten = true := ⟨rfl, rfl⟩

/-- Not BUSY, a reserved opcode, the all-zero word. -/
theorem witness_ReservedOpcodesAreIllegal :
    State.reset.busy = false ∧ opField 0x0000000C#32 ∈ [0x0#4, 0xC#4, 0xD#4, 0xE#4, 0xF#4] ∧
    ({ cmd := 0#32 } : Transaction).cmd = 0#32 := by decide

theorem witness_ForbiddenBitsAreIllegal :
    State.reset.busy = false ∧ (⟨.reset, 0xFFFFFFFF#32, 0x00000002#32⟩ : Row) ∈ rows ∧
    opField 0x00040002#32 = opField 0x00000002#32 ∧
    0x00040002#32 &&& 0xFFFFFFFF#32 ≠ 0x00000002#32 ∧
    0x80000007#32 &&& 0xFFF800F0#32 ≠ 0#32 := by decide

theorem witness_NotConfiguredBeforeNewCrc :
    State.reset.busy = false ∧ State.reset.cfgValid = false ∧ needsEngine .readCrc = true ∧
    needsEngine (.adler32 1#32 true []) = false := by decide

theorem witness_AbsentInputFails : Ready (engine .normal) ∧ State.reset.busy = false :=
  ⟨engine_ready _, rfl⟩

/-- The lowest index that is illegal; and a completion with ERR = 6. -/
theorem witness_IllegalOperandOnlyFromReadTable :
    Ready (engine .normal) ∧ 256 ≤ (256#32).toNat ∧
    (nextOf (exec (.readTable 256#32) (engine .normal))).map (fun t => t.outbox) =
      some ((engine .normal).outbox ++ [.completed 12#32 none none]) ∧
    (12#32).extractLsb' 1 4 = 6#4 :=
  ⟨engine_ready _, by decide, by decide +kernel, by decide⟩

/-- One transaction for each clause: illegal, not configured, absent, illegal operand, none. -/
theorem witness_FirstErrorIsReported :
    State.reset.busy = false ∧
    decode { cmd := 0#32 } = .error .reservedOpcode ∧
    (needsEngine .readCrc = true ∧ State.reset.cfgValid = false) ∧
    inputAbsent (.update false []) = true ∧ operandIllegal (.readTable 256#32) = true ∧
    operandIllegal (.readTable 255#32) = false := by decide

/-- A failing transaction, and one that starts a stream. -/
theorem witness_ErrorsArePrecise :
    (nextOf (issue { cmd := 0x00000005#32 } (engine .normal))).map (fun u => (u.busy, u.err)) =
      some (false, 1#4) ∧
    (nextOf (issue { cmd := 0x00010006#32 } (engine .normal))).map State.busy = some true := by
  decide +kernel

theorem witness_IoErrorEndsTheStream :
    (streaming (.awaitRead true)).strm = .awaitRead true ∧
    (streaming (.awaitWrite [1#8])).strm = .awaitWrite [1#8] ∧
    (streaming (.awaitWrite [1#8])).cfgValid = true ∧
    (∃ t, deliver (.sourceAnswer (.fail 0)) (streaming (.awaitRead true)) = .next t) ∧
    ∃ t, deliver (.sinkAnswer (.fail 0)) (streaming (.awaitWrite [1#8])) = .next t :=
  ⟨rfl, rfl, rfl, ⟨_, rfl⟩, _, rfl⟩

/-- A command that fails, and NEW_CRC, before any engine is constructed. -/
theorem witness_HardwareResetState :
    State.reset.cfgValid = false ∧ (∃ t, issue { cmd := 0x00000007#32 } State.reset = .next t) ∧
    ∃ t, issue { cmd := 0x00000001#32 } State.reset = .next t := ⟨rfl, ⟨_, rfl⟩, _, rfl⟩

theorem witness_NewCrcResult : State.reset.busy = false ∧ (engine .normal).busy = false := ⟨rfl, rfl⟩

/-- Ready, and not configured; a RESET that is followed by another. -/
theorem witness_ResetResult :
    Ready (engine .normal) ∧ State.reset.busy = false ∧ State.reset.cfgValid = false ∧
    ∃ t u, exec .reset (engine .normal) = .next t ∧ exec .reset t = .next u :=
  ⟨engine_ready _, rfl, rfl, _, _, rfl, rfl⟩

theorem witness_UpdateByteResult :
    Ready (engine .normal) ∧ State.reset.busy = false ∧ State.reset.cfgValid = false :=
  ⟨engine_ready _, rfl, rfl⟩

theorem witness_UpdateRepeatResult :
    Ready (engine .reflected) ∧ State.reset.busy = false ∧ State.reset.cfgValid = false :=
  ⟨engine_ready _, rfl, rfl⟩

theorem witness_UpdateResult :
    Ready (engine .normal) ∧ State.reset.busy = false ∧ State.reset.cfgValid = false :=
  ⟨engine_ready _, rfl, rfl⟩

/-- Ready, not configured, two reads in a row, and a read after RESET. -/
theorem witness_ReadCrcResult :
    Ready (engine .normal) ∧ State.reset.busy = false ∧ State.reset.cfgValid = false ∧
    (∃ t u, exec .readCrc (engine .normal) = .next t ∧ exec .readCrc t = .next u) ∧
    ∃ t, exec .reset (engine .normal) = .next t :=
  ⟨engine_ready _, rfl, rfl, ⟨_, _, rfl, rfl⟩, _, rfl⟩

theorem witness_ReadCountResult :
    Ready (engine .normal) ∧ State.reset.busy = false ∧ State.reset.cfgValid = false :=
  ⟨engine_ready _, rfl, rfl⟩

/-- The last legal index and the first illegal one. -/
theorem witness_ReadTableResult :
    Ready (engine .normal) ∧ (255#32).toNat < 256 ∧ 256 ≤ (256#32).toNat ∧
    State.reset.busy = false ∧ State.reset.cfgValid = false :=
  ⟨engine_ready _, by decide, by decide, rfl, rfl⟩

theorem witness_CombineResult :
    Ready (engine .normal) ∧
    (7#32 = if (0#32 : Word) = 0#32 then 7#32
      else zeros (engine .normal).table (engine .normal).bitord 7#32 0#32 ^^^ 1#32) ∧
    State.reset.busy = false ∧ State.reset.cfgValid = false :=
  ⟨engine_ready _, rfl, rfl, rfl⟩

theorem witness_Adler32Result :
    State.reset.busy = false ∧ (1#32 = if false then adler32 5#32 [] else 1#32) := ⟨rfl, rfl⟩

theorem witness_WritersOfEachRegister :
    ∃ t, exec (.update true [0x31#8]) (engine .normal) = .next t := ⟨_, rfl⟩

/-- A step that waits, one that runs NEW_CRC, one that is a hardware reset. -/
theorem witness_ConfigurationIsKept :
    (∃ t, step (engine .normal) = .next t) ∧
    (∃ t, step (State.reset.withFetchWord 32 1) = .next t) ∧
    ∃ t, step { engine .normal with inbox := [.hardwareReset] } = .next t :=
  ⟨⟨_, rfl⟩, ⟨_, rfl⟩, ⟨_, rfl⟩⟩

theorem witness_StreamStarts :
    Ready (engine .normal) ∧ State.reset.busy = false ∧ State.reset.cfgValid = false :=
  ⟨engine_ready _, rfl, rfl⟩

/-- The shortest and the longest chunk, with and without a sink, and one byte too many. -/
theorem witness_StreamTakesAChunk :
    (streaming (.awaitRead true)).strm = .awaitRead true ∧
    (streaming (.awaitRead false)).strm = .awaitRead false ∧
    ([1#8] : List Byte) ≠ [] ∧ [1#8].length ≤ (streaming (.awaitRead true)).chunkSize ∧
    (List.replicate 8192 1#8).length ≤ (streaming (.awaitRead false)).chunkSize ∧
    (streaming (.awaitRead false)).chunkSize < (List.replicate 8193 1#8).length :=
  ⟨rfl, rfl, by decide, by decide, by rw [List.length_replicate]; decide,
    by rw [List.length_replicate]; decide⟩

theorem witness_StreamAbsorbsAfterTheSink :
    (streaming (.awaitWrite [1#8])).strm = .awaitWrite [1#8] := rfl

theorem witness_StreamEnds :
    (streaming (.awaitRead true)).strm = .awaitRead true ∧
    (streaming (.awaitRead true)).cfgValid = true ∧
    ∃ t, deliver (.sourceAnswer (.data [])) (streaming (.awaitRead true)) = .next t :=
  ⟨rfl, rfl, _, rfl⟩

theorem witness_ChunkBoundaryIndependence :
    Ready (engine .normal) ∧
    ∀ d ∈ [[0x31#8], digits], d ≠ [] ∧ d.length ≤ (engine .normal).chunkSize :=
  ⟨engine_ready _, by decide +kernel⟩

theorem witness_SinkReceivesTheSourceBytes :
    Ready (engine .reflected) ∧
    ∀ d ∈ [digits, [0x31#8]], d ≠ [] ∧ d.length ≤ (engine .reflected).chunkSize :=
  ⟨engine_ready _, by decide +kernel⟩

theorem witness_BitReversal : 31 < 32 ∧ 0 < 32 ∧ 7 < 8 := by decide

theorem witness_ResetIdempotence : StateInv (engine .normal) ∧ Ready (engine .normal) :=
  ⟨engine_inv _, engine_ready _⟩

/-- With polynomial 0 the table is zero, so four zero bytes clear the register: the zero matrix
advances by `k = 4`. -/
theorem witness_SquareAdvancesTwice :
    ∃ (M : GfMatrix) (poly : Word) (bo : BitOrder) (k : Nat), k ≠ 0 ∧
      ∀ v, gf2Times M v = (zeroByte (buildTable poly bo) bo)^[k] v := by
  have hT : ∀ i : Byte, lookup (buildTable 0#32 .normal) i = 0#32 := by decide +kernel
  have hZ : ∀ r, zeroByte (buildTable 0#32 .normal) .normal r = r >>> 8 := by
    intro r
    simp [zeroByte, updateByte, hT, shiftReg]
  refine ⟨Vector.replicate 32 0#32, 0#32, .normal, 4, by decide, fun v => ?_⟩
  have hM : gf2Times (Vector.replicate 32 0#32) v = 0#32 := by
    unfold gf2Times
    generalize List.finRange 32 = l
    induction l with
    | nil => rfl
    | cons i l ih => simp
  rw [hM]
  simp only [Function.iterate_succ, Function.iterate_zero, Function.comp, hZ, id]
  simp only [← BitVec.shiftRight_add]
  exact (BitVec.ushiftRight_eq_zero (by decide)).symm

theorem witness_CombineIsTheCrcOfTheConcatenation :
    StateInv (engine .reflected) ∧ Ready (engine .reflected) ∧ digits.length < 2 ^ 32 :=
  ⟨engine_inv _, engine_ready _, by decide⟩

theorem witness_CombineUnusedOperands : Ready (engine .normal) := engine_ready _

theorem witness_AdlerOfNoBytes : State.reset.busy = false := rfl

theorem witness_AdlerClosedForm :
    digits ≠ [] ∧ [[0x31#8], digits.drop 1].flatten = digits := by decide

/-- A sub-block that is there and the one after the last; the worst case of R131, and the two sides of
each bound. -/
theorem witness_AdlerNoOverflow :
    (digits.drop (0 * Config.nmax)).take Config.nmax ≠ [] ∧
    (digits.drop (1 * Config.nmax)).take Config.nmax = [] ∧
    (65535 : Nat) ≤ 65535 ∧ (List.replicate 5552 0xFF#8).length ≤ 5552 ∧
    65521 ≤ 65521 ∧ 65535 ≤ 65535 :=
  ⟨by decide +kernel, by decide +kernel, le_rfl, le_of_eq List.length_replicate, le_rfl, le_rfl⟩

theorem witness_AdlerResultFields :
    digits ≠ [] ∧ ∃ s1 s2 : Nat,
      (s1, s2) = adlerAcc (((1#32 : Word) &&& 0xFFFF#32).toNat, ((1#32 : Word) >>> 16).toNat) digits :=
  ⟨by decide, _, _, rfl⟩

theorem witness_EveryStepKeepsTheInvariant :
    StateInv (engine .normal) ∧ ∃ t, step (engine .normal) = .next t := ⟨engine_inv _, _, rfl⟩

theorem witness_InstancesShareNoState :
    (∃ q, stepInstance 2 0 (platformReset 2) = .next q) ∧
    ∃ t, step (platformReset 2).cores[1] = .next t := ⟨⟨_, rfl⟩, _, rfl⟩

theorem witness_SameBytesSameChecksum :
    State.reset.busy = false ∧ (engine .reflected).busy = false ∧
    [[0x31#8], [0x32#8, 0x33#8]].flatten = [[0x31#8, 0x32#8], [0x33#8]].flatten := by decide +kernel

end Sys2Proof.Tests
end

section
/-! SUPPORT. What every command, and every step, can answer, said once over the commands and over
the host's inputs, with what each leaves unchanged; then the statements of 10_state.md. -/

namespace Sys2Proof.Machine

/-! ## Commands -/

/-- The state a command leaves when it raises no error; `exec_next` ties it to `exec`. For
CHECKSUM_STREAM this is the state of its start. -/
def performed (i : Instr) (s : State) : State :=
  match i with
  | .newCrc bo poly => complete
      { s with
        poly := poly, bitord := bo, table := buildTable poly bo
        reg := Config.regInit, tbr := 0#64, cfgValid := true }
  | .reset => complete { s with reg := Config.regInit, tbr := 0#64 }
  | .updateByte b => complete { s with reg := updateByte s.table s.bitord s.reg b }
  | .updateRepeat b n => complete
      { s with reg := (fun r => updateByte s.table s.bitord r b)^[n.toNat] s.reg }
  | .update _ buf => complete (absorb buf s)
  | .checksumStream _ sk => requestRead sk { s with tbr := 0#64, busy := true }
  | .readCrc => completeWith (zext64 (finalize s.reg)) s
  | .readCount => completeWith s.tbr s
  | .readTable index => completeWith (zext64 (lookup s.table (index.setWidth 8))) s
  | .combine crcA crcB lenB _ =>
      let c := combined s.table s.bitord crcA crcB lenB
      completeWith (zext64 c) { s with reg := finalize c }
  | .adler32 seed p buf => completeWith (zext64 (adlerValue seed p buf)) s

/-- What a command may leave: the state of an error, or, with an engine where it needs one, its own
effect. -/
def Answers (i : Instr) (s t : State) : Prop :=
  (∃ e, t = raise e s) ∨ ((needsEngine i = true → s.cfgValid = true) ∧ t = performed i s)

/-- A command behind the CFG_VALID check answers what it answers once the check is passed. -/
theorem answers_of_configured {i : Instr} {s t : State} {passed : Prop}
    (h : (s.cfgValid = true ∧ passed) ∨ (s.cfgValid = false ∧ t = raise .notConfigured s))
    (hk : passed → t = performed i s ∨ ∃ e, t = raise e s) : Answers i s t := by
  obtain ⟨hc, hp⟩ | ⟨-, ht⟩ := h
  · exact (hk hp).elim (fun ht => .inr ⟨fun _ => hc, ht⟩) .inl
  · exact .inl ⟨_, ht⟩

/-- Everything a command can do. -/
theorem exec_next {i : Instr} {s t : State} (h : exec i s = .next t) :
    s.busy = false ∧ Answers i s t := by
  cases i with
  | newCrc bo poly => exact (execNewCrc_next h).imp_right fun ht => .inr ⟨nofun, ht⟩
  | reset => exact (execReset_next h).imp_right (answers_of_configured · .inl)
  | updateByte b => exact (execUpdateByte_next h).imp_right (answers_of_configured · .inl)
  | updateRepeat b n => exact (execUpdateRepeat_next h).imp_right (answers_of_configured · .inl)
  | update p buf =>
    exact (execUpdate_next h).imp_right (answers_of_configured · (.imp And.right fun h => ⟨_, h.2⟩))
  | checksumStream p sk =>
    exact (execChecksumStream_next h).imp_right
      (answers_of_configured · (.imp And.right fun h => ⟨_, h.2⟩))
  | readCrc => exact (execReadCrc_next h).imp_right (answers_of_configured · .inl)
  | readCount => exact (execReadCount_next h).imp_right (answers_of_configured · .inl)
  | readTable index =>
    exact (execReadTable_next h).imp_right
      (answers_of_configured · (.imp And.right fun h => ⟨_, h.2⟩))
  | combine crcA crcB lenB lenA =>
    exact (execCombine_next (lenA := lenA) h).imp_right (answers_of_configured · .inl)
  | adler32 seed p buf => exact (execAdler32_next h).imp_right fun ht => .inr ⟨nofun, ht⟩

/-! ## What a command leaves unchanged, register by register (10_state.md R23) -/

/-- CFG_VALID, POLY, BITORD and TABLE (R24 to R27) are the same in both states. -/
def SameConfig (s t : State) : Prop :=
  t.cfgValid = s.cfgValid ∧ t.poly = s.poly ∧ t.bitord = s.bitord ∧ t.table = s.table

theorem raise_sameConfig (e : Err) (s : State) : SameConfig s (raise e s) := ⟨rfl, rfl, rfl, rfl⟩

theorem performed_config (i : Instr) (s : State) :
    (∃ bo p, i = .newCrc bo p) ∨ SameConfig s (performed i s) := by
  cases i with
  | newCrc bo p => exact .inl ⟨bo, p, rfl⟩
  | _ => exact .inr ⟨rfl, rfl, rfl, rfl⟩

theorem performed_reg (i : Instr) (s : State) :
    i.mnemonic ∈ [.newCrc, .reset, .updateByte, .updateRepeat, .update, .combine] ∨
      (performed i s).reg = s.reg := by
  cases i <;> simp [performed, Instr.mnemonic]

theorem performed_tbr (i : Instr) (s : State) :
    i.mnemonic ∈ [.newCrc, .reset, .update, .checksumStream] ∨ (performed i s).tbr = s.tbr := by
  cases i <;> simp [performed, Instr.mnemonic]

theorem performed_stream (i : Instr) (s : State) :
    (∃ p sk, i = .checksumStream p sk) ∨
      ((performed i s).busy = s.busy ∧ (performed i s).strm = s.strm) := by
  cases i with
  | checksumStream p sk => exact .inl ⟨p, sk, rfl⟩
  | _ => exact .inr ⟨rfl, rfl⟩

theorem performed_result (i : Instr) (s : State) :
    i.mnemonic ∈ [.readCrc, .readCount, .readTable, .combine, .adler32] ∨
      ((performed i s).result = s.result ∧ (performed i s).resultWritten = s.resultWritten) := by
  cases i <;> simp [performed, Instr.mnemonic]

/-- A command succeeds with code 0; the start of a stream keeps ERR (log entry 16). -/
theorem performed_err (i : Instr) (s : State) :
    (performed i s).err = errCode .ok ∨ (performed i s).err = s.err := by
  cases i with
  | checksumStream p sk => exact .inr rfl
  | _ => exact .inl rfl

@[simp] theorem performed_ioerr (i : Instr) (s : State) : (performed i s).ioerr = s.ioerr := by
  cases i <;> rfl

@[simp] theorem performed_inbox (i : Instr) (s : State) : (performed i s).inbox = s.inbox := by
  cases i <;> rfl

@[simp] theorem performed_chunkSize (i : Instr) (s : State) :
    (performed i s).chunkSize = s.chunkSize := by
  cases i <;> rfl

@[simp] theorem performed_drawSource (i : Instr) (s : State) :
    (performed i s).drawSource = s.drawSource := by
  cases i <;> rfl

@[simp] theorem performed_draws (i : Instr) (s : State) : (performed i s).draws = s.draws := by
  cases i <;> rfl

/-! ## Inputs -/

/-- What each input of the host may do, with the condition under which it does it: the middle
argument is the state before, the last the state after. -/
inductive Takes : Input → State → State → Prop
  | performs {tr : Transaction} {i : Instr} {s : State} (hd : decode tr = .ok i)
      (hidle : s.busy = false) (hc : needsEngine i = true → s.cfgValid = true) :
      Takes (.command tr) s (performed i s)
  | raises {tr : Transaction} {s : State} (e : Err) (hidle : s.busy = false) :
      Takes (.command tr) s (raise e s)
  | sourceFails {s : State} {sk : Bool} (k : Config.IoErr) (hs : s.strm = .awaitRead sk) :
      Takes (.sourceAnswer (.fail k)) s (ioError .ioRead k s)
  | sourceEnds {s : State} {sk : Bool} (hs : s.strm = .awaitRead sk) :
      Takes (.sourceAnswer (.data [])) s (endStream s)
  | chunkGoesToSink {s : State} {d : List Byte} (hs : s.strm = .awaitRead true) (hd : d ≠ [])
      (hlen : d.length ≤ s.chunkSize) : Takes (.sourceAnswer (.data d)) s (requestWrite d s)
  | chunkIsAbsorbed {s : State} {d : List Byte} (hs : s.strm = .awaitRead false) (hd : d ≠ [])
      (hlen : d.length ≤ s.chunkSize) :
      Takes (.sourceAnswer (.data d)) s (requestRead false (absorb d s))
  | sinkFails {s : State} {d : List Byte} (k : Config.IoErr) (hs : s.strm = .awaitWrite d) :
      Takes (.sinkAnswer (.fail k)) s (ioError .ioWrite k s)
  | sinkTakesChunk {s : State} {d : List Byte} (hs : s.strm = .awaitWrite d) :
      Takes (.sinkAnswer .ok) s (requestRead true (absorb d s))
  | readsStatus {s : State} : Takes .readStatus s (onReadStatus s)
  | readsResult {s : State} : Takes .readResult s (onReadResult s)
  | resets {s : State} : Takes .hardwareReset s (hardwareReset s)

theorem issue_takes {tr : Transaction} {s t : State} (h : issue tr s = .next t) :
    Takes (.command tr) s t := by
  obtain ⟨i, hd, hi⟩ | ⟨-, -, hi⟩ := issue_cases tr s
  · obtain ⟨hidle, ⟨e, rfl⟩ | ⟨hc, rfl⟩⟩ := exec_next (hi ▸ h)
    · exact .raises e hidle
    · exact .performs hd hidle hc
  · obtain ⟨hidle, ht⟩ := accept_next (hi ▸ h)
    cases ht
    exact .raises _ hidle

theorem onSourceAnswer_takes {a : SourceAnswer} {s t : State} (h : onSourceAnswer a s = .next t) :
    Takes (.sourceAnswer a) s t := by
  obtain ⟨sk, hs, ha⟩ := onSourceAnswer_next h
  obtain ⟨k, rfl, rfl⟩ | ⟨rfl, rfl⟩ | ⟨d, rfl, hd, hlen, hsink⟩ := answerRead_next ha
  · exact .sourceFails k hs
  · exact .sourceEnds hs
  · obtain ⟨rfl, rfl⟩ | ⟨rfl, rfl⟩ := hsink
    · exact .chunkGoesToSink hs hd hlen
    · exact .chunkIsAbsorbed hs hd hlen

theorem onSinkAnswer_takes {a : SinkAnswer} {s t : State} (h : onSinkAnswer a s = .next t) :
    Takes (.sinkAnswer a) s t := by
  obtain ⟨d, hs, ha⟩ := onSinkAnswer_next h
  obtain ⟨k, rfl, rfl⟩ | ⟨rfl, rfl⟩ := answerWrite_next ha
  · exact .sinkFails k hs
  · exact .sinkTakesChunk hs

/-- Everything an input can do. -/
theorem deliver_takes {e : Input} {s t : State} (h : deliver e s = .next t) : Takes e s t := by
  cases e with
  | command tr => exact issue_takes h
  | sourceAnswer a => exact onSourceAnswer_takes h
  | sinkAnswer a => exact onSinkAnswer_takes h
  | readStatus => cases h; exact .readsStatus
  | readResult => cases h; exact .readsResult
  | hardwareReset => cases h; exact .resets

/-- Everything a step can do, as inputs taken. -/
theorem step_takes {s t : State} (h : step s = .next t) :
    (s.inbox = [] ∧ t = s) ∨
      ∃ e rest, s.inbox = e :: rest ∧ Takes e { s with inbox := rest } t := by
  obtain ⟨hin, hw⟩ | ⟨e, rest, hin, hd⟩ := step_cases s
  · exact .inl ⟨hin, Host.Outcome.next.inj (h.symm.trans hw)⟩
  · exact .inr ⟨e, rest, hin, deliver_takes (hd ▸ h)⟩

/-! ## The configuration over a step (R24 to R27) -/

/-- Only NEW_CRC and a hardware reset write the configuration. -/
theorem Takes.config {e : Input} {s t : State} (h : Takes e s t) :
    e = .hardwareReset ∨
      (t.cfgValid = true ∧ ∃ tr bo p, e = .command tr ∧ decode tr = .ok (.newCrc bo p)) ∨
      SameConfig s t := by
  cases h with
  | resets => exact .inl rfl
  | @performs tr i _ hd =>
    obtain ⟨bo, p, rfl⟩ | hcfg := performed_config i s
    · exact .inr (.inl ⟨rfl, tr, bo, p, rfl, hd⟩)
    · exact .inr (.inr hcfg)
  | _ => exact .inr (.inr ⟨rfl, rfl, rfl, rfl⟩)

/-! ## The invariant over a step (R30, R33, R35) -/

theorem errCode_le (e : Err) : (errCode e).toNat ≤ 6 := by cases e <;> decide

namespace StateInv

variable {s t : State}

/-- The table and CHUNK_SIZE parts of the invariant follow from those before when neither is
written; the parts about the stream are left. -/
theorem of_sameConfig (hs : StateInv s) (hcfg : SameConfig s t) (hsize : t.chunkSize = s.chunkSize)
    (herr : t.err.toNat ≤ 6) (hbusy : t.busy = true ↔ t.strm ≠ .idle)
    (hchunk : ∀ d, t.strm = .awaitWrite d → d ≠ [] ∧ d.length ≤ s.chunkSize)
    (hengine : t.busy = true → s.cfgValid = true) : StateInv t := by
  obtain ⟨hvalid, hpoly, hbitord, htable⟩ := hcfg
  constructor
  case table => rw [hvalid, hpoly, hbitord, htable]; exact hs.table
  case busy => exact hbusy
  case err => exact herr
  case chunk => rw [hsize]; exact hchunk
  case engine => rw [hvalid]; exact hengine
  case chunkSize => rw [hsize]; exact hs.chunkSize

/-- A step that writes neither the configuration nor the stream's state. -/
theorem of_sameStream (hs : StateInv s) (hcfg : SameConfig s t) (hsize : t.chunkSize = s.chunkSize)
    (herr : t.err.toNat ≤ 6) (hbusy : t.busy = s.busy) (hstrm : t.strm = s.strm) : StateInv t :=
  hs.of_sameConfig hcfg hsize herr (by rw [hbusy, hstrm]; exact hs.busy)
    (by rw [hstrm]; exact hs.chunk) (by rw [hbusy]; exact hs.engine)

/-- A step after which no stream is in progress. -/
theorem of_idle (hs : StateInv s) (hcfg : SameConfig s t) (hsize : t.chunkSize = s.chunkSize)
    (herr : t.err.toNat ≤ 6) (hbusy : t.busy = false) (hstrm : t.strm = .idle) : StateInv t :=
  hs.of_sameConfig hcfg hsize herr (by simp [hbusy, hstrm]) (by simp [hstrm]) (by simp [hbusy])

/-- The queue of inputs is no part of the invariant. -/
theorem withInbox (hs : StateInv s) (l : List Input) : StateInv { s with inbox := l } :=
  hs.of_sameStream ⟨rfl, rfl, rfl, rfl⟩ rfl hs.err rfl rfl

theorem emit (hs : StateInv s) (o : Output) : StateInv (emit o s) :=
  hs.of_sameStream ⟨rfl, rfl, rfl, rfl⟩ rfl hs.err rfl rfl

theorem raise (hs : StateInv s) (e : Err) : StateInv (raise e s) :=
  hs.of_sameStream (raise_sameConfig e s) rfl (errCode_le e) rfl rfl

theorem absorb (hs : StateInv s) (d : List Byte) : StateInv (absorb d s) :=
  hs.of_sameStream ⟨rfl, rfl, rfl, rfl⟩ rfl hs.err rfl rfl

theorem ioError (hs : StateInv s) (e : Err) (k : Config.IoErr) : StateInv (ioError e k s) :=
  hs.of_idle ⟨rfl, rfl, rfl, rfl⟩ rfl (errCode_le e) rfl rfl

theorem endStream (hs : StateInv s) : StateInv (endStream s) :=
  hs.of_idle ⟨rfl, rfl, rfl, rfl⟩ rfl (errCode_le .ok) rfl rfl

/-- A stream in progress is BUSY, so it may wait for the source again. -/
theorem requestRead (hs : StateInv s) (sk : Bool) (hstream : s.strm ≠ .idle) :
    StateInv (requestRead sk s) :=
  hs.of_sameConfig ⟨rfl, rfl, rfl, rfl⟩ rfl hs.err (by simpa using hs.busy.mpr hstream) (by simp)
    hs.engine

/-- A legal chunk may wait for the sink. -/
theorem requestWrite (hs : StateInv s) {d : List Byte} (hstream : s.strm ≠ .idle) (hd : d ≠ [])
    (hlen : d.length ≤ s.chunkSize) : StateInv (requestWrite d s) :=
  hs.of_sameConfig ⟨rfl, rfl, rfl, rfl⟩ rfl hs.err (by simpa using hs.busy.mpr hstream)
    (by rintro _ ⟨⟩; exact ⟨hd, hlen⟩) hs.engine

/-- After a hardware reset CFG_VALID = 0 and no stream is in progress, whatever the UNSPEC fields
hold (70_reset_and_hazards.md R155). -/
theorem hardwareReset (hs : StateInv s) : StateInv (hardwareReset s) where
  table := nofun
  busy := by simp
  err := by simp
  chunk := nofun
  engine := nofun
  chunkSize := hs.chunkSize

/-- NEW_CRC builds the table of the configuration it writes; CHECKSUM_STREAM, which starts on a
constructed engine, raises BUSY with STRM; every other command writes neither. -/
theorem performed (hs : StateInv s) (i : Instr)
    (hc : needsEngine i = true → s.cfgValid = true) : StateInv (performed i s) := by
  have herr : (Machine.performed i s).err.toNat ≤ 6 := by
    obtain h | h := performed_err i s
    · rw [h]; exact errCode_le .ok
    · rw [h]; exact hs.err
  obtain ⟨bo, p, rfl⟩ | hcfg := performed_config i s
  · exact ⟨fun _ => rfl, hs.busy, herr, hs.chunk, fun _ => rfl, hs.chunkSize⟩
  obtain ⟨p, sk, rfl⟩ | ⟨hbusy, hstrm⟩ := performed_stream i s
  · exact hs.of_sameConfig hcfg rfl herr (by simp [Machine.performed]) nofun fun _ => hc rfl
  · exact hs.of_sameStream hcfg (performed_chunkSize i s) herr hbusy hstrm

/-- Every input that is taken keeps the invariant. -/
theorem takes {e : Input} (hs : StateInv s) (h : Takes e s t) : StateInv t := by
  cases h with
  | performs _ _ hc => exact hs.performed _ hc
  | raises e => exact hs.raise e
  | sourceFails k => exact hs.ioError .ioRead k
  | sourceEnds => exact hs.endStream
  | chunkGoesToSink hstrm hd hlen => exact hs.requestWrite (by simp [hstrm]) hd hlen
  | chunkIsAbsorbed hstrm => exact (hs.absorb _).requestRead false (by simp [hstrm])
  | sinkFails k => exact hs.ioError .ioWrite k
  | sinkTakesChunk hstrm => exact (hs.absorb _).requestRead true (by simp [hstrm])
  | readsStatus => exact hs.emit _
  | readsResult => exact hs.emit _
  | resets => exact hs.hardwareReset

end StateInv

/-! ## The STATUS word, field by field (R30) -/

theorem statusWord_busy (s : State) : (statusWord s).getLsbD 0 = s.busy := by
  rw [statusWord, BitVec.getLsbD_append]
  simp

theorem statusWord_err (s : State) : (statusWord s).extractLsb' 1 4 = s.err := by
  rw [statusWord, BitVec.extractLsb'_append_eq_of_le (by decide)]
  exact BitVec.extractLsb'_append_eq_right

theorem statusWord_reserved (s : State) : (statusWord s).extractLsb' 5 27 = 0#27 := by
  rw [statusWord, BitVec.extractLsb'_append_eq_of_le (by decide)]
  exact BitVec.extractLsb'_append_eq_left

/-! ## The statements -/

/-- Settles O58: a step waits or takes one input, and every input that is taken keeps the
invariant. -/
theorem everyStepKeepsTheInvariant : Obligations.EveryStepKeepsTheInvariant := by
  intro s t hs h
  obtain ⟨-, rfl⟩ | ⟨e, rest, -, htakes⟩ := step_takes h
  · exact hs
  · exact (hs.withInbox rest).takes htakes

/-- Settles O29: an error writes none of these registers, and the command's own effect writes each
only where the state table says. -/
theorem writersOfEachRegister : Obligations.WritersOfEachRegister := by
  intro i s t h
  obtain ⟨-, ⟨e, rfl⟩ | ⟨-, rfl⟩⟩ := exec_next h
  · exact ⟨.inr (raise_sameConfig e s), .inr rfl, .inr rfl, .inr ⟨rfl, rfl⟩, .inr ⟨rfl, rfl⟩,
      rfl, rfl, rfl, rfl, rfl⟩
  · have hstream : i.mnemonic = .checksumStream ∨
        ((performed i s).busy = s.busy ∧ (performed i s).strm = s.strm) :=
      (performed_stream i s).imp_left (by rintro ⟨p, sk, rfl⟩; rfl)
    exact ⟨performed_config i s, performed_reg i s, performed_tbr i s, hstream,
      performed_result i s, performed_ioerr i s, performed_inbox i s, performed_chunkSize i s,
      performed_drawSource i s, performed_draws i s⟩

/-- Settles O30, from what an input may write of the configuration. -/
theorem configurationIsKept : Obligations.ConfigurationIsKept := by
  intro s t h
  obtain ⟨-, rfl⟩ | ⟨e, rest, hin, htakes⟩ := step_takes h
  · exact .inr ⟨id, .inr ⟨rfl, rfl, rfl, rfl⟩⟩
  have hhead : s.inbox.head? = some e := by rw [hin]; rfl
  obtain rfl | ⟨hvalid, tr, bo, p, rfl, hd⟩ | hcfg := htakes.config
  · exact .inl hhead
  · exact .inr ⟨fun _ => hvalid, .inl ⟨tr, bo, p, hhead, hd⟩⟩
  · exact .inr ⟨hcfg.1.trans, .inr hcfg⟩

/-- Settles O8: the word is its three fields side by side, and the read only emits it. -/
theorem statusLayout : Obligations.StatusLayout := fun s =>
  ⟨statusWord_busy s, statusWord_err s, statusWord_reserved s, rfl⟩

/-- Settles O9: the read only emits its answer, which is the value or the signal. -/
theorem resultRead : Obligations.ResultRead := fun s =>
  ⟨fun h => by simp [deliver, onReadResult, emit, h],
    fun h => by simp [deliver, onReadResult, emit, h]⟩

end Sys2Proof.Machine
end

section
/-! SUPPORT. A stream, input by input: what its start and each answer of the host lead to, run by
run; then the statement of 20_memory.md. -/

namespace Sys2Proof.Machine

section StreamRules

variable {s : State} {d : List Byte} {sk : Bool}

/-! ## One input of a stream (41_crc_update.md R98 to R101) -/

theorem decode_encode_checksumStream (p sk : Bool) :
    decode (encode (.checksumStream p sk)) = .ok (.checksumStream p sk) := by
  cases p <;> cases sk <;> rfl

theorem execChecksumStream_ready (hs : Ready s) :
    execChecksumStream true sk s = .next (requestRead sk { s with tbr := 0#64, busy := true }) := by
  obtain ⟨hidle, hvalid⟩ := hs
  rw [execChecksumStream, accept_ready hidle, configured_valid hvalid]
  rfl

theorem deliver_checksumStream (hs : Ready s) :
    deliver (.command (encode (.checksumStream true sk))) s =
      .next (requestRead sk { s with tbr := 0#64, busy := true }) := by
  rw [deliver, issue, decode_encode_checksumStream]
  exact execChecksumStream_ready hs

theorem deliver_sourceAnswer (a : SourceAnswer) (hs : s.strm = .awaitRead sk) :
    deliver (.sourceAnswer a) s = answerRead sk a s := by
  simp [deliver, onSourceAnswer, hs]

theorem deliver_sinkAnswer (a : SinkAnswer) (hs : s.strm = .awaitWrite d) :
    deliver (.sinkAnswer a) s = answerWrite d a s := by
  simp [deliver, onSinkAnswer, hs]

/-- An answer that is neither empty nor too long is a chunk. -/
theorem deliver_chunk (hs : s.strm = .awaitRead sk) (hd : d ≠ []) (hlen : d.length ≤ s.chunkSize) :
    deliver (.sourceAnswer (.data d)) s =
      .next (if sk then requestWrite d s else requestRead false (absorb d s)) := by
  have hne : ¬ d.isEmpty = true := by simpa using hd
  rw [deliver_sourceAnswer _ hs, answerRead, if_neg (Nat.not_lt.mpr hlen), if_neg hne]
  cases sk <;> rfl

theorem deliver_endOfSource (hs : s.strm = .awaitRead sk) :
    deliver (.sourceAnswer (.data [])) s = .next (endStream s) :=
  deliver_sourceAnswer _ hs

theorem endStream_outbox_eq (s : State) :
    (endStream s).outbox = s.outbox ++ [.completed 0#32 (some (zext64 (finalize s.reg))) none] := by
  rw [endStream, completeWith_eq _ rfl]

/-! ## A stream with a sink -/

/-- One chunk with a sink is two inputs: it is passed on, then absorbed, and the next read is
issued. -/
theorem runInputs_sinkChunk (es : List Input) (hs : s.strm = .awaitRead true) (hd : d ≠ [])
    (hlen : d.length ≤ s.chunkSize) :
    runInputs (.sourceAnswer (.data d) :: .sinkAnswer .ok :: es) s =
      runInputs es (requestRead true (absorb d (requestWrite d { s with inbox := [] }))) := by
  have hread : deliver (.sourceAnswer (.data d)) { s with inbox := [] } =
      .next (requestWrite d { s with inbox := [] }) :=
    deliver_chunk (s := { s with inbox := [] }) hs hd hlen
  have hwrite : deliver (.sinkAnswer .ok) (requestWrite d { s with inbox := [] }) =
      .next (requestRead true (absorb d (requestWrite d { s with inbox := [] }))) :=
    deliver_sinkAnswer _ rfl
  rw [runInputs_cons hread, runInputs_cons hwrite]

/-- What a stream with a sink sends from an outstanding read on. The read is the last thing sent, so
that after each chunk the outbox has the same form, with one round more before the read. -/
theorem runInputs_streamAnswers_sink (ds : List (List Byte)) {sent : List Output}
    (hs : s.strm = .awaitRead true) (hsent : s.outbox = sent ++ [.srcRead s.chunkSize])
    (hds : ∀ d ∈ ds, d ≠ [] ∧ d.length ≤ s.chunkSize) :
    ∃ t v, runInputs (streamAnswers true ds) s = .next t ∧
      t.outbox = sent ++ ds.flatMap (fun d => [.srcRead s.chunkSize, .sinkWrite d]) ++
        [.srcRead s.chunkSize, .completed 0#32 (some v) none] := by
  induction ds generalizing s sent with
  | nil =>
    refine ⟨_, zext64 (finalize s.reg), runInputs_cons (deliver_endOfSource hs), ?_⟩
    rw [endStream_outbox_eq]
    simp [hsent]
  | cons d ds ih =>
    obtain ⟨⟨hd, hlen⟩, hds⟩ := List.forall_mem_cons.mp hds
    obtain ⟨t, v, hrun, hout⟩ := ih
      (s := requestRead true (absorb d (requestWrite d { s with inbox := [] })))
      (sent := sent ++ [.srcRead s.chunkSize, .sinkWrite d]) rfl (by simp [hsent]) hds
    exact ⟨t, v, (runInputs_sinkChunk _ hs hd hlen).trans hrun, by simpa using hout⟩

/-- Among a stream's requests only the writes carry bytes to the sink. -/
theorem sinkBytes_requests (n : Nat) (ds : List (List Byte)) :
    sinkBytes (ds.flatMap fun d => [.srcRead n, .sinkWrite d]) = ds.flatten := by
  induction ds with
  | nil => rfl
  | cons d ds ih => simp [sinkBytes, ih]

end StreamRules

/-! ## The statement -/

/-- Settles O36: the start issues the first read, and the run from there sends the rounds; the sink's
bytes are those of the writes among them. -/
theorem sinkReceivesTheSourceBytes : Obligations.SinkReceivesTheSourceBytes := by
  intro s ds hs hds
  have hstart := deliver_checksumStream (s := { s with inbox := [] }) (sk := true) hs
  obtain ⟨t, v, hrun, hout⟩ := runInputs_streamAnswers_sink
    (s := requestRead true { s with inbox := [], tbr := 0#64, busy := true }) ds rfl rfl hds
  refine ⟨t, v, (runInputs_cons hstart).trans hrun, hout, ?_⟩
  simp [hout, sinkBytes_append, sinkBytes_requests, sinkBytes]

end Sys2Proof.Machine
end

section
/-! SUPPORT. The decoder and the encoder of 30_encoding.md, field by field and row by row; then its
statements. -/

namespace Sys2Proof

/-! ## The fields of a command word (R56) -/

theorem opField_and (v w : Word) : opField (v &&& w) = opField v &&& opField w :=
  BitVec.extractLsb'_and

theorem boField_or_boBits {w : Word} (h : w.getLsbD 18 = false) (bo : BitOrder) :
    boField (w ||| boBits bo) = bo := by
  have hor : (w ||| boBits bo).getLsbD 18 = (w.getLsbD 18 || (boBits bo).getLsbD 18) :=
    BitVec.getLsbD_or
  rw [boField, hor, h]
  cases bo <;> rfl

theorem byteField_byteBits (b : Byte) : byteField (byteBits b) = b := by
  ext i hi
  simp [byteField, byteBits, hi, show 8 + i < 32 by omega]

theorem byteField_or_byteBits {w : Word} (h : byteField w = 0#8) (b : Byte) :
    byteField (w ||| byteBits b) = b := by
  have hor : byteField (w ||| byteBits b) = byteField w ||| byteField (byteBits b) :=
    BitVec.extractLsb'_or
  rw [hor, h, byteField_byteBits, BitVec.zero_or]

theorem pField_or_pBits {w : Word} (h : pField w = false) (p : Bool) :
    pField (w ||| pBits p) = p := by
  have hor : pField (w ||| pBits p) = (pField w || pField (pBits p)) := BitVec.getLsbD_or
  rw [hor, h]
  cases p <;> rfl

theorem and_eq_boBits (w : Word) : w &&& 0x00040000#32 = boBits (boField w) := by
  rw [show 0x00040000#32 = BitVec.twoPow 32 18 from rfl, BitVec.and_twoPow]
  unfold boField
  cases w.getLsbD 18 <;> rfl

theorem and_eq_pBits (w : Word) : w &&& 0x00010000#32 = pBits (pField w) :=
  BitVec.and_twoPow w 16

theorem and_eq_sBits (w : Word) : w &&& 0x00020000#32 = sBits (sField w) :=
  BitVec.and_twoPow w 17

theorem and_eq_pBits_or_sBits (w : Word) :
    w &&& 0x00030000#32 = pBits (pField w) ||| sBits (sField w) := by
  rw [show 0x00030000#32 = 0x00010000#32 ||| 0x00020000#32 from rfl, BitVec.and_or_distrib_left,
    and_eq_pBits, and_eq_sBits]

/-- `BYTE` is bits 15:8: the mask has exactly those bits. -/
theorem and_eq_byteBits (w : Word) : w &&& 0x0000FF00#32 = byteBits (byteField w) := by
  have hmask : ∀ i (h : i < 32), (0x0000FF00#32)[i] = decide (8 ≤ i ∧ i < 16) := by decide
  ext i hi
  by_cases h8 : 8 ≤ i
  · simp [byteField, byteBits, hmask, hi, h8, Nat.sub_lt_iff_lt_add, Bool.and_comm]
  · simp [byteField, byteBits, hmask, h8]

/-! ## The rows (R58) -/

theorem matches_iff (r : Row) (w : Word) : r.matches w = true ↔ w &&& r.mask = r.value := beq_iff_eq

/-- Every mask covers bits 3:0, so a word has the `OP` of the row it matches. -/
theorem opField_eq_of_matches {r : Row} (hr : r ∈ rows) {w : Word} (h : r.matches w = true) :
    opField w = opField r.value := by
  have hmask : ∀ r ∈ rows, opField r.mask = BitVec.allOnes 4 := by decide
  rw [← (matches_iff r w).mp h, opField_and, hmask r hr, BitVec.and_allOnes]

theorem eq_of_opField_eq :
    ∀ r ∈ rows, ∀ r' ∈ rows, opField r.value = opField r'.value → r = r' := by decide

/-- At most one row matches a word: the rows' `OP` values differ. -/
theorem eq_of_matches {r r' : Row} (hr : r ∈ rows) (hr' : r' ∈ rows) {w : Word}
    (h : r.matches w = true) (h' : r'.matches w = true) : r = r' :=
  eq_of_opField_eq r hr r' hr' <|
    (opField_eq_of_matches hr h).symm.trans (opField_eq_of_matches hr' h')

/-- A word that matches a row is the row's match value with the word's own free bits. -/
theorem value_or_free {r : Row} {w : Word} (h : r.matches w = true) :
    r.value ||| (w &&& ~~~r.mask) = w := by
  rw [← (matches_iff r w).mp h, ← BitVec.and_or_distrib_left, BitVec.or_not_self,
    BitVec.and_allOnes]

/-! ## The decoder (R59) -/

/-- The first row that matches is the only one, so decoding does not depend on the rows' order. -/
theorem decode_of_matches {r : Row} (hr : r ∈ rows) {t : Transaction}
    (h : r.matches t.cmd = true) : decode t = .ok (assemble r.name t) := by
  obtain ⟨r', hr', h', hd⟩ | ⟨hnone, -⟩ := decode_cases t
  · rwa [eq_of_matches hr hr' h h']
  · rw [hnone r hr] at h
    cases h

theorem decode_of_unmatched {t : Transaction} (h : ∀ r ∈ rows, r.matches t.cmd = false) :
    ∃ e, decode t = .error e := by
  obtain ⟨r, hr, hm, -⟩ | ⟨-, he⟩ := decode_cases t
  · rw [h r hr] at hm
    cases hm
  · exact he

theorem decodeTableWord_eq_some {nbits w : Nat} {i : Instr} (h : decodeTableWord nbits w = some i) :
    decode (transactionOfBits nbits w) = .ok i := by
  unfold decodeTableWord at h
  split at h
  · next hd => cases h; exact hd
  · cases h

/-! ## Decoding an encoded command (R57, R63) -/

theorem encode_matches (i : Instr) : Laws.RowWord.Statement i := by
  cases i with
  | newCrc bo poly => exact Laws.RowWord.newCrc bo poly
  | reset => exact Laws.RowWord.reset
  | updateByte b => exact Laws.RowWord.updateByte b
  | updateRepeat b n => exact Laws.RowWord.updateRepeat b n
  | update p buf => exact Laws.RowWord.update p buf
  | checksumStream p sk => exact Laws.RowWord.checksumStream p sk
  | readCrc => exact Laws.RowWord.readCrc
  | readCount => exact Laws.RowWord.readCount
  | readTable index => exact Laws.RowWord.readTable index
  | combine crcA crcB lenB lenA => exact Laws.RowWord.combine crcA crcB lenB lenA
  | adler32 seed p buf => exact Laws.RowWord.adler32 seed p buf

/-- A canonical buffer operand is read back as it was given: an absent one has no bytes (R64). -/
theorem bufOperand_of_bufferOk {t : Transaction} {p : Bool} (hp : pField t.cmd = p)
    (h : bufferOk p t.buf = true) : bufOperand t = t.buf := by
  unfold bufOperand
  cases p with
  | true => rw [hp]; rfl
  | false => rw [hp]; exact (List.isEmpty_iff.mp h).symm

theorem bufferOk_bufOperand (t : Transaction) : bufferOk (pField t.cmd) (bufOperand t) = true := by
  unfold bufOperand
  cases pField t.cmd <;> rfl

/-- Each field and each operand of an encoded command is read back from its own place. -/
theorem assemble_encode {i : Instr} (h : i.wellFormed = true) : assemble i.mnemonic (encode i) = i := by
  cases i with
  | newCrc bo poly => exact congrArg (Instr.newCrc · poly) (boField_or_boBits rfl bo)
  | updateByte b => exact congrArg Instr.updateByte (byteField_or_byteBits rfl b)
  | updateRepeat b n => exact congrArg (Instr.updateRepeat · n) (byteField_or_byteBits rfl b)
  | update p buf =>
    have hp : pField (encode (.update p buf)).cmd = p := pField_or_pBits rfl p
    exact congrArg₂ Instr.update hp (bufOperand_of_bufferOk hp h)
  | checksumStream p sk => cases p <;> cases sk <;> rfl
  | adler32 seed p buf =>
    have hp : pField (encode (.adler32 seed p buf)).cmd = p := pField_or_pBits rfl p
    exact congrArg₂ (Instr.adler32 seed) hp (bufOperand_of_bufferOk hp h)
  | reset | readCrc | readCount | readTable _ | combine _ _ _ _ => rfl

/-- With every operand at every value, a well-formed command is decoded from its encoding. -/
theorem decode_encode {i : Instr} (h : i.wellFormed = true) : decode (encode i) = .ok i := by
  obtain ⟨r, hr, hname, hm⟩ := encode_matches i
  rw [decode_of_matches hr hm, hname, assemble_encode h]

/-! ## Encoding a decoded command (R59) -/

theorem wellFormed_assemble (m : Mnemonic) (t : Transaction) :
    (assemble m t).wellFormed = true := by
  cases m with
  | update | adler32 => exact bufferOk_bufOperand t
  | newCrc | reset | updateByte | updateRepeat | checksumStream | readCrc | readCount | readTable
  | combine => rfl

theorem mnemonic_assemble (m : Mnemonic) (t : Transaction) : (assemble m t).mnemonic = m := by
  cases m <;> rfl

/-- The encoder gives back the row's match value and the word's free bits, each in its place. -/
theorem encode_assemble_cmd {r : Row} (hr : r ∈ rows) (t : Transaction) :
    (encode (assemble r.name t)).cmd = r.value ||| (t.cmd &&& ~~~r.mask) := by
  have hfixed (v : Word) : v = v ||| (t.cmd &&& ~~~0xFFFFFFFF#32) := by simp
  simp only [rows, List.mem_cons, List.not_mem_nil, or_false] at hr
  rcases hr with rfl | rfl | rfl | rfl | rfl | rfl | rfl | rfl | rfl | rfl | rfl
  · exact congrArg (0x00000001#32 ||| ·) (and_eq_boBits t.cmd).symm
  · exact hfixed _
  · exact congrArg (0x00000003#32 ||| ·) (and_eq_byteBits t.cmd).symm
  · exact congrArg (0x00000004#32 ||| ·) (and_eq_byteBits t.cmd).symm
  · exact congrArg (0x00000005#32 ||| ·) (and_eq_pBits t.cmd).symm
  · exact (BitVec.or_assoc _ _ _).trans
      (congrArg (0x00000006#32 ||| ·) (and_eq_pBits_or_sBits t.cmd).symm)
  · exact hfixed _
  · exact hfixed _
  · exact hfixed _
  · exact hfixed _
  · exact congrArg (0x0000000B#32 ||| ·) (and_eq_pBits t.cmd).symm

end Sys2Proof

namespace Sys2Proof.Machine

/-! ## A transaction in a step (R59, R159) -/

theorem issue_of_decode {t : Transaction} {i : Instr} (h : decode t = .ok i) (s : State) :
    issue t s = exec i s := by
  simp [issue, h]

/-- A word that matches no row completes with ILLEGAL_COMMAND and changes nothing else (R60, R61). -/
theorem issue_of_unmatched {t : Transaction} {s : State} (hs : s.busy = false)
    (h : ∀ r ∈ rows, r.matches t.cmd ≠ true) : issue t s = .next (failedWith 4#4 s) := by
  obtain ⟨e, he⟩ := decode_of_unmatched fun r hr => Bool.eq_false_iff.mpr (h r hr)
  simp [issue, he, accept_ready hs, raise_eq _ hs, errCode]

theorem step_of_inbox {s : State} {e : Input} {rest : List Input} (h : s.inbox = e :: rest) :
    step s = deliver e { s with inbox := rest } := by
  simp [step, takeInput, h]

/-! ## The statements -/

/-- Settles O1: the encoded word matches the row of its command, and that row reads every operand
back. -/
theorem decodeOfEncode : Obligations.DecodeOfEncode := fun _ => decode_encode

/-- Settles O2: a decoded command is assembled by a row that its word matches. -/
theorem decodedWordIsTheEncodedWord : Obligations.DecodedWordIsTheEncodedWord := by
  intro t i h
  obtain ⟨r, hr, hm, hd⟩ | ⟨-, e, he⟩ := decode_cases t
  · obtain rfl : assemble r.name t = i := by simpa [hd] using h
    exact ⟨wellFormed_assemble _ _, (encode_assemble_cmd hr t).trans (value_or_free hm),
      r, hr, (mnemonic_assemble _ _).symm, (matches_iff _ _).mp hm⟩
  · simp [he] at h

/-- Settles O3: the rows' `OP` values differ, and every mask covers `OP`. -/
theorem atMostOneRowMatches : Obligations.AtMostOneRowMatches :=
  ⟨rfl, fun w r _ => matches_iff r w, fun _ _ hr _ hr' => eq_of_matches hr hr',
    fun _ _ hr => decode_of_matches hr, fun _ => decode_of_unmatched⟩

/-- Settles O11: the rows' `OP` values are the legal opcodes, so a reserved one matches no row. -/
theorem reservedOpcodesAreIllegal : Obligations.ReservedOpcodesAreIllegal := by
  intro t s hs
  have hlegal : ∀ r ∈ rows, opField r.value ∉ [0x0#4, 0xC#4, 0xD#4, 0xE#4, 0xF#4] := by decide
  have hreserved (hop : opField t.cmd ∈ [0x0#4, 0xC#4, 0xD#4, 0xE#4, 0xF#4]) :
      issue t s = .next (failedWith 4#4 s) := by
    refine issue_of_unmatched hs fun r hr hm => hlegal r hr ?_
    rwa [← opField_eq_of_matches hr hm]
  exact ⟨hreserved, fun hzero => hreserved (by rw [hzero]; decide)⟩

/-- Settles O12. The only row a word could match is the row of its `OP`, and bits 7:4 and 31:19 are in
every mask and in no match value. -/
theorem forbiddenBitsAreIllegal : Obligations.ForbiddenBitsAreIllegal := by
  intro t s hs
  have hfixed : ∀ r ∈ rows, r.mask &&& 0xFFF800F0#32 = 0xFFF800F0#32 ∧
      r.value &&& 0xFFF800F0#32 = 0#32 := by decide
  have hop (r : Row) (hr : r ∈ rows) (h : opField t.cmd = opField r.value)
      (hne : t.cmd &&& r.mask ≠ r.value) : issue t s = .next (failedWith 4#4 s) := by
    refine issue_of_unmatched hs fun r' hr' hm => hne ?_
    obtain rfl := eq_of_opField_eq r hr r' hr' (h.symm.trans (opField_eq_of_matches hr' hm))
    exact (matches_iff r _).mp hm
  refine ⟨hop, fun hbits => ?_, fun hword => ?_⟩
  · refine issue_of_unmatched hs fun r hr hm => hbits ?_
    obtain ⟨hmask, hvalue⟩ := hfixed r hr
    rw [← hmask, ← BitVec.and_assoc, (matches_iff r _).mp hm, hvalue]
  · refine hop ⟨.reset, 0xFFFFFFFF#32, 0x00000002#32⟩ (by decide) ?_ ?_ <;> rw [hword] <;> decide

/-- Settles O4: the six words are the encodings of the six commands; the other two match no row. -/
theorem specWordsDecode : Obligations.SpecWordsDecode :=
  ⟨decode_encode (i := .newCrc .reflected 0xEDB88320#32) rfl,
    decode_encode (i := .updateByte 0x31#8) rfl,
    decode_encode (i := .updateRepeat 0xFF#8 3#32) rfl,
    decode_encode (i := .update true [0x61#8]) rfl,
    decode_encode (i := .checksumStream false true) rfl,
    decode_encode (i := .adler32 1#32 true [0x61#8]) rfl, rfl, rfl⟩

/-- Settles O5: a step delivers the oldest input, and a placed word is the oldest. -/
theorem stepRunsTheDecodedCommand : Obligations.StepRunsTheDecodedCommand := by
  have hstep (s : State) (t : Transaction) (i : Instr) (rest : List Input)
      (hin : s.inbox = .command t :: rest) (hd : decode t = .ok i) :
      step s = exec i { s with inbox := rest } :=
    (step_of_inbox hin).trans (issue_of_decode hd _)
  exact ⟨hstep, fun s w i hw => hstep (s.withFetchWord 32 w) _ i s.inbox rfl
    (decodeTableWord_eq_some hw)⟩

end Sys2Proof.Machine
end

section
/-! SUPPORT. Bit reversal place by place, and the entries of the two tables from it; then the
statements of 40_crc_table.md. -/

namespace Sys2Proof.Machine

/-! ## Bit reversal (R70, R71) -/

/-- One line of the routine of R70: adjacent blocks of `w` bits change places, where `m` has the
bits of every lower block. -/
def swapBlocks (m : Word) (w : Nat) (x : Word) : Word :=
  ((x >>> w) &&& m) ||| ((x &&& m) <<< w)

theorem rev32_eq_swapBlocks (x : Word) :
    rev32 x = swapBlocks 0x0000FFFF#32 16 (swapBlocks 0x00FF00FF#32 8 (swapBlocks 0x0F0F0F0F#32 4
      (swapBlocks 0x33333333#32 2 (swapBlocks 0x55555555#32 1 x)))) := rfl

/-- `m` has the bits of the lower block of each pair of blocks of `w` bits: the partner of a bit, a
place of the word too, is `w` above it where `m` has the bit, and `w` below it where `m` has not. -/
def LowerBlocks (m : Word) (w : Nat) : Prop :=
  ∀ k < 32, k ^^^ w < 32 ∧
    (m.getLsbD k = true → k ^^^ w = w + k ∧ (k < w ∨ m.getLsbD (k - w) = false)) ∧
    (m.getLsbD k = false → ¬ k < w ∧ k ^^^ w = k - w ∧ m.getLsbD (k - w) = true)

/-- Of the two halves of the line, each bit gets its partner from one and 0 from the other. -/
theorem getLsbD_swapBlocks {m : Word} {w : Nat} (hm : LowerBlocks m w) (x : Word) {k : Nat}
    (hk : k < 32) : (swapBlocks m w x).getLsbD k = x.getLsbD (k ^^^ w) := by
  obtain ⟨-, hlower, hupper⟩ := hm k hk
  have hbit : (swapBlocks m w x).getLsbD k = ((x.getLsbD (w + k) && m.getLsbD k) ||
      (!decide (k < w) && (x.getLsbD (k - w) && m.getLsbD (k - w)))) := by
    simp only [swapBlocks, BitVec.getLsbD_or, BitVec.getLsbD_and, BitVec.getLsbD_ushiftRight,
      BitVec.getLsbD_shiftLeft, hk, decide_true, Bool.true_and]
  rw [hbit]
  cases hmask : m.getLsbD k with
  | true =>
    obtain ⟨hplace, hw | habove⟩ := hlower hmask
    · simp [hplace, hw]
    · simp [hplace, habove]
  | false =>
    obtain ⟨hw, hplace, hbelow⟩ := hupper hmask
    simp [hplace, hw, hbelow]

/-- Through the five lines, bit `k` comes from the place that differs from `k` in all five bits. -/
theorem getLsbD_rev32 (x : Word) {k : Nat} (hk : k < 32) :
    (rev32 x).getLsbD k = x.getLsbD (31 - k) := by
  have h16 : LowerBlocks 0x0000FFFF#32 16 := by unfold LowerBlocks; decide
  have h8 : LowerBlocks 0x00FF00FF#32 8 := by unfold LowerBlocks; decide
  have h4 : LowerBlocks 0x0F0F0F0F#32 4 := by unfold LowerBlocks; decide
  have h2 : LowerBlocks 0x33333333#32 2 := by unfold LowerBlocks; decide
  have h1 : LowerBlocks 0x55555555#32 1 := by unfold LowerBlocks; decide
  have hplace : ∀ k < 32, k ^^^ 16 ^^^ 8 ^^^ 4 ^^^ 2 ^^^ 1 = 31 - k := by decide
  have hk16 := (h16 k hk).1
  have hk8 := (h8 _ hk16).1
  have hk4 := (h4 _ hk8).1
  have hk2 := (h2 _ hk4).1
  rw [rev32_eq_swapBlocks, getLsbD_swapBlocks h16 _ hk, getLsbD_swapBlocks h8 _ hk16,
    getLsbD_swapBlocks h4 _ hk8, getLsbD_swapBlocks h2 _ hk4, getLsbD_swapBlocks h1 _ hk2,
    hplace k hk]

@[simp] theorem rev32_rev32 (x : Word) : rev32 (rev32 x) = x := by
  apply BitVec.eq_of_getLsbD_eq
  intro k hk
  rw [getLsbD_rev32 _ hk, getLsbD_rev32 _ (by omega), Nat.sub_sub_self (by omega)]

theorem rev32_xor (x y : Word) : rev32 (x ^^^ y) = rev32 x ^^^ rev32 y := by
  apply BitVec.eq_of_getLsbD_eq
  intro k hk
  simp [getLsbD_rev32 _ hk]

theorem getLsbD_rev8 (i : Byte) {k : Nat} (hk : k < 8) :
    (rev8 i).getLsbD k = i.getLsbD (7 - k) := by
  have htop : 24 + k < 32 := by omega
  have hplace : 31 - (24 + k) = 7 - k := by omega
  have hplace' : 7 - k < 32 := by omega
  simp only [rev8, BitVec.getLsbD_setWidth, BitVec.getLsbD_ushiftRight, getLsbD_rev32 _ htop,
    hplace, hplace', hk, decide_true, Bool.true_and]

/-- The shift leaves 8 bits, so the byte is all of it. -/
theorem setWidth_rev8 (i : Byte) : (rev8 i).setWidth 32 = rev32 (i.setWidth 32) >>> 24 := by
  apply BitVec.setWidth_setWidth_eq_self
  rw [BitVec.lt_def, BitVec.toNat_ushiftRight, Nat.shiftRight_eq_div_pow]
  exact Nat.div_lt_of_lt_mul (rev32 _).isLt

@[simp] theorem rev8_rev8 (i : Byte) : rev8 (rev8 i) = i := by
  apply BitVec.eq_of_getLsbD_eq
  intro k hk
  rw [getLsbD_rev8 _ hk, getLsbD_rev8 _ (by omega), Nat.sub_sub_self (by omega)]

theorem rev8_xor (i j : Byte) : rev8 (i ^^^ j) = rev8 i ^^^ rev8 j := by
  apply BitVec.eq_of_getLsbD_eq
  intro k hk
  simp [getLsbD_rev8 _ hk]

/-! ## The tables (R72 to R75) -/

theorem lookup_normal (poly : Word) (i : Byte) : lookup (buildTable poly .normal) i = div8 i poly :=
  lookup_buildTable poly .normal i

theorem lookup_reflected (poly : Word) (j : Byte) :
    lookup (buildTable poly .reflected) j = rev32 (div8 (rev8 j) poly) :=
  lookup_buildTable poly .reflected j

theorem lookup_xor (poly : Word) (bo : BitOrder) (a b : Byte) :
    lookup (buildTable poly bo) (a ^^^ b) =
      lookup (buildTable poly bo) a ^^^ lookup (buildTable poly bo) b := by
  cases bo with
  | normal => simp only [lookup_normal, div8_xor]
  | reflected => simp only [lookup_reflected, rev8_xor, div8_xor, rev32_xor]

theorem lookup_zero (poly : Word) (bo : BitOrder) : lookup (buildTable poly bo) 0#8 = 0#32 := by
  have h := lookup_xor poly bo 0#8 0#8
  rwa [BitVec.xor_self, BitVec.xor_self] at h

/-- Seven steps bring 0x80 to 1, and the eighth gives `(1 >> 1) ^ P` (R74). -/
theorem div8_highBit (poly : Word) : div8 0x80#8 poly = poly := by
  have hseven : (divStep poly)^[7] 0x80#32 = 1#32 := by simp [divStep]
  have hlast : divStep poly 1#32 = 0#32 ^^^ poly := rfl
  calc div8 0x80#8 poly = divStep poly ((divStep poly)^[7] 0x80#32) :=
        Function.iterate_succ_apply' _ _ _
    _ = poly := by rw [hseven, hlast, BitVec.zero_xor]

/-! ## The commands (R77, R78) -/

/-- Whatever a command does behind the CFG_VALID check, without an engine it fails with
NOT_CONFIGURED (60_exceptions.md R141). -/
theorem accept_configured_invalid {s : State} (k : Host.Outcome State Fault Refusal)
    (hidle : s.busy = false) (hinvalid : s.cfgValid = false) :
    accept s (configured s k) = .next (failedWith 5#4 s) := by
  rw [accept_ready hidle, configured_invalid hinvalid, raise_eq _ hidle]
  rfl

theorem accept_configured_ready {s : State} (k : Host.Outcome State Fault Refusal) (hs : Ready s) :
    accept s (configured s k) = k := by
  obtain ⟨hidle, hvalid⟩ := hs
  rw [accept_ready hidle, configured_valid hvalid]

theorem withIndex_legal {index : Word} (s : State) (k : Byte → Host.Outcome State Fault Refusal)
    (h : index.toNat < 256) : withIndex index s k = k (index.setWidth 8) := if_pos h

theorem withIndex_illegal {index : Word} (s : State) (k : Byte → Host.Outcome State Fault Refusal)
    (h : 256 ≤ index.toNat) : withIndex index s k = .next (raise .illegalOperand s) :=
  if_neg (Nat.not_lt.mpr h)

theorem lookup_setWidth (T : Vector Word 256) {index : Word} (h : index.toNat < 256) :
    lookup T (index.setWidth 8) = T[index.toNat] := by
  simp [lookup, Nat.mod_eq_of_lt h]

theorem exec_readTable_ready {s : State} (index : Word) (hs : Ready s) :
    exec (.readTable index) s =
      withIndex index s fun i => .next (completeWith (zext64 (lookup s.table i)) s) :=
  accept_configured_ready _ hs

/-! ## The statements -/

/-- Settles O37: the five mask lines exchange blocks of 1, 2, 4, 8 and 16 bits, and `rev8` is
`rev32` read at the top byte. -/
theorem bitReversal : Obligations.BitReversal :=
  ⟨fun x _ hk => getLsbD_rev32 x hk, fun i _ hk => getLsbD_rev8 i hk, setWidth_rev8⟩

/-- Settles O38: `rev8` is its own inverse, so the index `j` is written from `rev8 j` alone. -/
theorem tableEntries : Obligations.TableEntries := by
  refine fun poly => ⟨lookup_normal poly, fun i => ?_, fun j => ⟨rev8 j, rev8_rev8 j, ?_⟩⟩
  · rw [lookup_reflected, rev8_rev8]
  · rintro i rfl
    exact (rev8_rev8 i).symm

/-- Settles O39: the division, `rev8` and `rev32` are linear, and `rev8` takes 0x01 to 0x80. -/
theorem tableIsLinear : Obligations.TableIsLinear := by
  refine fun poly => ⟨fun bo => ⟨lookup_zero poly bo, lookup_xor poly bo⟩, ?_, ?_⟩
  · rw [lookup_normal, div8_highBit]
  · rw [lookup_reflected, show rev8 0x01#8 = 0x80#8 by decide, div8_highBit]

/-- Settles O40: both reversals are their own inverses. -/
theorem tableSymmetry : Obligations.TableSymmetry := by
  refine fun poly i => ⟨?_, ?_⟩
  · rw [lookup_reflected, lookup_normal, rev8_rev8]
  · rw [lookup_reflected, lookup_normal, rev32_rev32]

/-- Settles O19: NEW_CRC asks for no engine. -/
theorem newCrcResult : Obligations.NewCrcResult := fun _ _ _ hidle =>
  (accept_ready hidle).trans (congrArg Host.Outcome.next (complete_eq hidle))

/-- Settles O26: behind the two checks the index alone decides. -/
theorem readTableResult : Obligations.ReadTableResult := by
  refine fun s index => ⟨fun hs hlegal => ?_, fun hs hillegal => ?_, accept_configured_invalid _⟩
  · rw [exec_readTable_ready index hs, withIndex_legal s _ hlegal, lookup_setWidth s.table hlegal,
      completeWith_eq _ hs.1]
    rfl
  · rw [exec_readTable_ready index hs, withIndex_illegal s _ hillegal, raise_eq _ hs.1]
    rfl

end Sys2Proof.Machine
end

section
/-! SUPPORT. The update datapaths as division circuits, and their linearity; then the statements of
41_crc_update.md about them. -/

namespace Sys2Proof.Machine

/-! ## The Normal datapath (R86, R88) -/

theorem setWidth_and_lowByte (r : Word) : (r &&& 0xFF#32).setWidth 8 = r.setWidth 8 := by
  rw [BitVec.setWidth_and, show (0xFF#32).setWidth 8 = BitVec.allOnes 8 from rfl,
    BitVec.and_allOnes]

theorem setWidth_ushiftRight_eight (b : Byte) : b.setWidth 32 >>> 8 = 0#32 := by
  apply BitVec.eq_of_getLsbD_eq
  intro k hk
  simp

/-- While a 0 leaves the register, the circuit only shifts. -/
theorem divStep_iterate_of_lowBits_zero (poly : Word) (n : Nat) {x : Word}
    (h : ∀ k < n, x.getLsbD k = false) : (divStep poly)^[n] x = x >>> n := by
  induction n generalizing x with
  | zero => rfl
  | succ n ih =>
    have hstep : divStep poly x = x >>> 1 := if_neg (by rw [h 0 (by omega)]; decide)
    have hrest : ∀ k < n, (x >>> 1).getLsbD k = false := fun k hk => by
      rw [BitVec.getLsbD_ushiftRight]
      exact h (1 + k) (by omega)
    rw [Function.iterate_succ_apply, hstep, ih hrest, ← BitVec.shiftRight_add, Nat.add_comm]

/-- In eight steps the low byte becomes its table entry, and the bits above it are shifted down. -/
theorem divStep_iterate_eight (poly x : Word) :
    (divStep poly)^[8] x = (x >>> 8) ^^^ div8 (x.setWidth 8) poly := by
  have hlow : ∀ k < 8, (x ^^^ (x.setWidth 8).setWidth 32).getLsbD k = false := fun k hk => by
    simp [hk, show k < 32 by omega]
  calc (divStep poly)^[8] x
      = (divStep poly)^[8] (x ^^^ (x.setWidth 8).setWidth 32 ^^^ (x.setWidth 8).setWidth 32) := by
        rw [BitVec.xor_assoc, BitVec.xor_self, BitVec.xor_zero]
    _ = (x ^^^ (x.setWidth 8).setWidth 32) >>> 8 ^^^ div8 (x.setWidth 8) poly := by
        rw [iterate_xor (divStep_xor poly), divStep_iterate_of_lowBits_zero poly 8 hlow, div8]
    _ = (x >>> 8) ^^^ div8 (x.setWidth 8) poly := by
        rw [BitVec.ushiftRight_xor_distrib, setWidth_ushiftRight_eight, BitVec.xor_zero]

/-- The byte enters at the low end, and eight serial steps follow. -/
theorem updateByte_normal (poly r : Word) (b : Byte) :
    updateByte (buildTable poly .normal) .normal r b =
      (divStep poly)^[8] (r ^^^ b.setWidth 32) := by
  have hindex : tableIndex .normal r b = (r ^^^ b.setWidth 32).setWidth 8 := by
    rw [tableIndex, setWidth_and_lowByte, BitVec.setWidth_xor,
      BitVec.setWidth_setWidth_of_le _ (by decide), BitVec.setWidth_eq]
  rw [divStep_iterate_eight, BitVec.ushiftRight_xor_distrib, setWidth_ushiftRight_eight,
    BitVec.xor_zero, updateByte, lookup_normal, hindex]
  rfl

/-! ## The Reflected datapath, the mirror image of the Normal one (R87, R89) -/

/-- One step of the mirrored circuit, the `t` of R89. -/
def mirrorStep (poly x : Word) : Word :=
  if x.getLsbD 31 then (x <<< 1) ^^^ rev32 poly else x <<< 1

theorem rev32_ushiftRight (x : Word) (n : Nat) : rev32 (x >>> n) = rev32 x <<< n := by
  apply BitVec.eq_of_getLsbD_eq
  intro k hk
  rw [getLsbD_rev32 _ hk, BitVec.getLsbD_ushiftRight, BitVec.getLsbD_shiftLeft]
  by_cases hn : k < n
  · simp [hn, show 32 ≤ n + (31 - k) by omega]
  · simp [hn, hk, getLsbD_rev32 x (show k - n < 32 by omega),
      show n + (31 - k) = 31 - (k - n) by omega]

theorem rev32_shiftLeft (x : Word) (n : Nat) : rev32 (x <<< n) = rev32 x >>> n := by
  rw [← rev32_rev32 (rev32 x >>> n), rev32_ushiftRight, rev32_rev32]

/-- A step of the circuit, seen in the mirror, is a step of the mirrored circuit. -/
theorem rev32_divStep (poly x : Word) : rev32 (divStep poly x) = mirrorStep poly (rev32 x) := by
  rw [mirrorStep, divStep, getLsbD_rev32 _ (by decide), ← rev32_ushiftRight, ← rev32_xor]
  exact apply_ite rev32 _ _ _

theorem rev32_divStep_iterate (poly x : Word) (n : Nat) :
    rev32 ((divStep poly)^[n] x) = (mirrorStep poly)^[n] (rev32 x) :=
  Function.Semiconj.iterate_right (rev32_divStep poly) n x

/-- The high byte of a word, reversed, is the low byte of the word reversed. -/
theorem rev8_highByte (r : Word) : rev8 ((r >>> 24).setWidth 8) = (rev32 r).setWidth 8 := by
  apply BitVec.eq_of_getLsbD_eq
  intro k hk
  rw [getLsbD_rev8 _ hk]
  simp [hk, getLsbD_rev32 r (show k < 32 by omega), show 7 - k < 8 by omega,
    show 24 + (7 - k) = 31 - k by omega]

/-- The two datapaths are the same circuit seen in a mirror: `rev32` takes register to register,
`rev8` byte to byte. -/
theorem updateByte_reflected (poly r : Word) (b : Byte) :
    updateByte (buildTable poly .reflected) .reflected r b =
      rev32 (updateByte (buildTable poly .normal) .normal (rev32 r) (rev8 b)) := by
  have hindex : rev8 (tableIndex .reflected r b) = tableIndex .normal (rev32 r) (rev8 b) := by
    rw [tableIndex, tableIndex, rev8_xor, rev8_highByte, setWidth_and_lowByte]
  have hshift : shiftReg .reflected r = rev32 (shiftReg .normal (rev32 r)) := by
    rw [shiftReg, shiftReg, rev32_ushiftRight, rev32_rev32]
  rw [updateByte, updateByte, lookup_reflected, lookup_normal, hindex, hshift, rev32_xor]

/-! ## Linearity (R107) -/

theorem xor_xor_xor_comm {n : Nat} (a b c d : BitVec n) :
    a ^^^ b ^^^ (c ^^^ d) = a ^^^ c ^^^ (b ^^^ d) := by
  ac_rfl

theorem shiftReg_xor (bo : BitOrder) (r r' : Word) :
    shiftReg bo (r ^^^ r') = shiftReg bo r ^^^ shiftReg bo r' := by
  cases bo with
  | normal => exact BitVec.ushiftRight_xor_distrib _ _ _
  | reflected => exact BitVec.shiftLeft_xor_distrib _ _ _

theorem tableIndex_xor (bo : BitOrder) (r r' : Word) (b b' : Byte) :
    tableIndex bo (r ^^^ r') (b ^^^ b') = tableIndex bo r b ^^^ tableIndex bo r' b' := by
  cases bo with
  | normal =>
    simp only [tableIndex, setWidth_and_lowByte, BitVec.setWidth_xor]
    exact xor_xor_xor_comm _ _ _ _
  | reflected =>
    simp only [tableIndex, BitVec.ushiftRight_xor_distrib, BitVec.setWidth_xor]
    exact xor_xor_xor_comm _ _ _ _

/-- The datapath is linear in the register and the byte together. -/
theorem updateByte_xor (poly : Word) (bo : BitOrder) (r r' : Word) (b b' : Byte) :
    updateByte (buildTable poly bo) bo (r ^^^ r') (b ^^^ b') =
      updateByte (buildTable poly bo) bo r b ^^^ updateByte (buildTable poly bo) bo r' b' := by
  unfold updateByte
  rw [shiftReg_xor, tableIndex_xor, lookup_xor]
  exact xor_xor_xor_comm _ _ _ _

theorem zeroByte_xor (poly : Word) (bo : BitOrder) (a b : Word) :
    zeroByte (buildTable poly bo) bo (a ^^^ b) =
      zeroByte (buildTable poly bo) bo a ^^^ zeroByte (buildTable poly bo) bo b :=
  updateByte_xor poly bo a b 0x00#8 0x00#8

theorem updateByte_eq_zeroByte_xor (poly : Word) (bo : BitOrder) (r : Word) (b : Byte) :
    updateByte (buildTable poly bo) bo r b =
      zeroByte (buildTable poly bo) bo r ^^^ updateByte (buildTable poly bo) bo 0#32 b := by
  rw [zeroByte, ← updateByte_xor, BitVec.xor_zero, BitVec.zero_xor]

theorem updateBlock_cons (T : Vector Word 256) (bo : BitOrder) (r : Word) (b : Byte)
    (m : List Byte) : updateBlock T bo r (b :: m) = updateBlock T bo (updateByte T bo r b) m := rfl

theorem updateBlock_eq_zeroByte_iterate_xor (poly : Word) (bo : BitOrder) (m : List Byte)
    (r : Word) : updateBlock (buildTable poly bo) bo r m =
      (zeroByte (buildTable poly bo) bo)^[m.length] r ^^^
        updateBlock (buildTable poly bo) bo 0#32 m := by
  induction m generalizing r with
  | nil => exact BitVec.xor_zero.symm
  | cons b m ih =>
    rw [updateBlock_cons, updateBlock_cons, ih (updateByte _ _ r b), ih (updateByte _ _ 0#32 b),
      updateByte_eq_zeroByte_xor poly bo r b, iterate_xor (zeroByte_xor poly bo), List.length_cons,
      Function.iterate_succ_apply, BitVec.xor_assoc]

/-! ## The statements about the datapaths -/

/-- Settles O41: the step written out in the statement is the division step. -/
theorem normalIsEightSerialSteps : Obligations.NormalIsEightSerialSteps := updateByte_normal

/-- Settles O42: in the mirror the register is `rev32 r`, the byte `rev8 b`, and the step the
division step. -/
theorem reflectedIsEightSerialSteps : Obligations.ReflectedIsEightSerialSteps := by
  intro poly r b
  have hinput : r ^^^ (b.setWidth 32 <<< 24) = rev32 (rev32 r ^^^ (rev8 b).setWidth 32) := by
    rw [rev32_xor, rev32_rev32, setWidth_rev8, rev32_ushiftRight, rev32_rev32]
  calc updateByte (buildTable poly .reflected) .reflected r b
      = rev32 ((divStep poly)^[8] (rev32 r ^^^ (rev8 b).setWidth 32)) := by
        rw [updateByte_reflected, updateByte_normal]
    _ = (mirrorStep poly)^[8] (r ^^^ (b.setWidth 32 <<< 24)) := by
        rw [hinput, rev32_divStep_iterate]

/-- Settles O43, from the linearity of the datapath and of the table. -/
theorem affineDecomposition : Obligations.AffineDecomposition := fun poly bo r =>
  ⟨updateByte_eq_zeroByte_xor poly bo r, fun m => updateBlock_eq_zeroByte_iterate_xor poly bo m r,
    lookup_xor poly bo⟩

/-- Settles O44: no byte enters the all-ones register. -/
theorem emptyMessageCrc : Obligations.EmptyMessageCrc := by
  intro poly bo
  have h : crc poly bo [] = ~~~ 0xFFFFFFFF#32 := congrArg finalize (updateBlock_nil _ bo _)
  exact ⟨h, h.trans (by decide)⟩

end Sys2Proof.Machine
end

section
/-! SUPPORT. The commands of the CRC unit, the answers a stream takes, and the runs made of both;
then the statements of 41_crc_update.md about them. -/

namespace Sys2Proof.Machine

/-! ## One command (R92 to R96) -/

/-- Behind the checks a command has its own effect. -/
theorem exec_ready {s : State} (i : Instr) (hs : Ready s) (hinput : inputAbsent i = false)
    (hoperand : operandIllegal i = false) : exec i s = .next (performed i s) := by
  cases i with
  | newCrc | adler32 => exact accept_ready hs.1
  | update p _ | checksumStream p _ =>
    cases p with
    | true => exact accept_configured_ready _ hs
    | false => cases hinput
  | readTable index =>
    exact (exec_readTable_ready index hs).trans
      (withIndex_legal s _ (Nat.lt_of_not_le (of_decide_eq_false hoperand)))
  | reset | updateByte | updateRepeat | readCrc | readCount | combine =>
    exact accept_configured_ready _ hs

theorem eq_performed_of_exec {s t : State} {i : Instr} (hs : Ready s)
    (hinput : inputAbsent i = false) (hoperand : operandIllegal i = false)
    (h : exec i s = .next t) : t = performed i s :=
  Host.Outcome.next.inj (h.symm.trans (exec_ready i hs hinput hoperand))

/-- With an engine but without its buffer or source, a command fails with NULL_INPUT
(60_exceptions.md R137). -/
theorem exec_inputAbsent {s : State} {i : Instr} (hs : Ready s) (h : inputAbsent i = true) :
    exec i s = .next (failedWith 1#4 s) := by
  have hraise := congrArg (Host.Outcome.next (φ := Fault) (ρ := Refusal)) (raise_eq .nullInput hs.1)
  cases i with
  | update p _ | checksumStream p _ =>
    cases p with
    | true => cases h
    | false => exact (accept_configured_ready _ hs).trans hraise
  | _ => cases h

/-- With `P = 0` the buffer is ignored, even if it is non-empty (30_encoding.md R64). -/
theorem decode_absentUpdate (buf : List Byte) :
    decode { cmd := 0x00000005#32, buf := buf } = .ok (.update false []) := by
  have hmatch : (⟨.update, 0xFFFEFFFF#32, 0x00000005#32⟩ : Row).matches 0x00000005#32 = true := rfl
  have hp : pField 0x00000005#32 = false := rfl
  rw [decode_of_matches (t := { cmd := 0x00000005#32, buf := buf }) (by decide) hmatch]
  simp [assemble, bufOperand, hp]

theorem absorb_eq (d : List Byte) (s : State) :
    absorb d s =
      { s with
        reg := updateBlock s.table s.bitord s.reg d
        tbr := BitVec.ofNat 64 (s.tbr.toNat + d.length) } := by
  rw [← absorb_tbr_toNat]
  rfl

/-- A READ_CRC on an all-ones register gives 0. -/
theorem exec_readCrc_regInit {s : State} (hs : Ready s) (hreg : s.reg = Config.regInit) :
    ∃ u, exec .readCrc s = .next u ∧ u.result = 0#64 := by
  refine ⟨_, exec_ready .readCrc hs rfl rfl, ?_⟩
  rw [performed, completeWith_result, hreg]
  rfl

/-! ## The examples of the rules, by the serial steps of R88 -/

theorem updateBlock_normal (poly r : Word) (m : List Byte) :
    updateBlock (buildTable poly .normal) .normal r m =
      m.foldl (fun r b => (divStep poly)^[8] (r ^^^ b.setWidth 32)) r := by
  rw [updateBlock, funext₂ (updateByte_normal poly)]

/-- The register after the check message "123456789". -/
theorem updateBlock_checkMessage :
    updateBlock (buildTable 0xEDB88320#32 .normal) .normal 0xFFFFFFFF#32
      [0x31#8, 0x32#8, 0x33#8, 0x34#8, 0x35#8, 0x36#8, 0x37#8, 0x38#8, 0x39#8] =
      0x340BC6D9#32 := by
  simp [updateBlock_normal, divStep]

/-! ## One answer of the host (R99 to R102) -/

theorem ioError_eq (e : Err) (k : Config.IoErr) (s : State) :
    ioError e k s =
      { s with
        ioerr := some k
        reg := Config.drawReg s.drawSource s.draws, tbr := Config.drawTbr s.drawSource s.draws
        strm := .idle, busy := false, err := errCode e, draws := s.draws + 1
        outbox := s.outbox ++ [.completed ((errCode e).setWidth 32 <<< 1) none (some k)] } := by
  rw [ioError, statusWord_idle rfl]
  rfl

theorem deliver_sourceFail {s : State} {sk : Bool} (k : Config.IoErr)
    (hs : s.strm = .awaitRead sk) :
    deliver (.sourceAnswer (.fail k)) s = .next (ioError .ioRead k s) :=
  deliver_sourceAnswer _ hs

theorem deliver_sinkFail {s : State} {d : List Byte} (k : Config.IoErr)
    (hs : s.strm = .awaitWrite d) :
    deliver (.sinkAnswer (.fail k)) s = .next (ioError .ioWrite k s) :=
  deliver_sinkAnswer _ hs

/-- A failed answer that has a step ends the stream with an I/O error, whichever request it
answers. -/
theorem ioError_of_deliver_fail {s t : State} {k : Config.IoErr}
    (h : deliver (.sourceAnswer (.fail k)) s = .next t ∨
      deliver (.sinkAnswer (.fail k)) s = .next t) : ∃ e, t = ioError e k s := by
  obtain h | h := h
  · cases deliver_takes h with
    | sourceFails => exact ⟨_, rfl⟩
  · cases deliver_takes h with
    | sinkFails => exact ⟨_, rfl⟩

theorem endStream_eq (s : State) :
    endStream s =
      { s with
        strm := .idle, busy := false, result := (~~~ s.reg).setWidth 64, resultWritten := true
        err := 0#4
        outbox := s.outbox ++ [.completed 0#32 (some ((~~~ s.reg).setWidth 64)) none] } := by
  rw [endStream, completeWith_eq _ rfl]
  rfl

/-! ## Runs of commands (R103, R105) -/

/-- A command issued in a Ready state has its own effect, and the run goes on. -/
theorem runInputs_command {s : State} {i : Instr} (es : List Input) (hs : Ready s)
    (hwf : i.wellFormed = true) (hinput : inputAbsent i = false)
    (hoperand : operandIllegal i = false) :
    runInputs (.command (encode i) :: es) s =
      runInputs es (performed i { s with inbox := [] }) :=
  runInputs_cons ((issue_of_decode (decode_encode hwf) _).trans (exec_ready i hs hinput hoperand))

/-- From a fresh register, `UPDATE m ; READ_CRC` gives the finalized checksum of `m`. -/
theorem runInputs_update_readCrc {s : State} (m : List Byte) (hs : Ready s)
    (hreg : s.reg = Config.regInit) :
    ∃ t, runInputs [.command (encode (.update true m)), .command (encode .readCrc)] s = .next t ∧
      t.result = zext64 (finalize (updateBlock s.table s.bitord Config.regInit m)) := by
  refine ⟨_, (runInputs_command _ hs rfl rfl rfl).trans
    (runInputs_command _ (i := .readCrc) hs rfl rfl rfl), ?_⟩
  rw [← hreg]
  rfl

/-- What bytes taken in leave: `m` has entered REG and is counted in TBR, and what a further byte or
read depends on, the table, the bit order and CHUNK_SIZE, is as before. -/
structure Absorbed (m : List Byte) (s t : State) : Prop where
  reg : t.reg = updateBlock s.table s.bitord s.reg m
  tbr : t.tbr = BitVec.ofNat 64 (s.tbr.toNat + m.length)
  table : t.table = s.table
  bitord : t.bitord = s.bitord
  chunkSize : t.chunkSize = s.chunkSize

namespace Absorbed

/-- Before any byte: the queue of inputs is no part of it. -/
theorem withInbox (s : State) (l : List Input) : Absorbed [] s { s with inbox := l } :=
  ⟨rfl, by simp, rfl, rfl, rfl⟩

/-- Chunk boundaries do not show: two parts taken in one after the other are their concatenation. -/
theorem append {m m' : List Byte} {s t u : State} (h : Absorbed m s t) (h' : Absorbed m' t u) :
    Absorbed (m ++ m') s u where
  reg := by rw [h'.reg, h.reg, h.table, h.bitord, updateBlock_append]
  tbr := by
    rw [h'.tbr, h.tbr]
    apply BitVec.eq_of_toNat_eq
    simp [Nat.add_assoc]
  table := h'.table.trans h.table
  bitord := h'.bitord.trans h.bitord
  chunkSize := h'.chunkSize.trans h.chunkSize

end Absorbed

/-- UPDATE commands take in their buffers one after the other. -/
theorem runInputs_updates {s : State} (ds : List (List Byte)) (hs : Ready s) :
    ∃ t, runInputs (ds.map fun d => .command (encode (.update true d))) s = .next t ∧
      Absorbed ds.flatten s t := by
  induction ds generalizing s with
  | nil => exact ⟨s, rfl, .withInbox s s.inbox⟩
  | cons d ds ih =>
    obtain ⟨t, hrun, ht⟩ := ih (s := complete (absorb d { s with inbox := [] })) hs
    have hd : Absorbed d s (complete (absorb d { s with inbox := [] })) :=
      ⟨rfl, absorb_tbr_toNat d s, rfl, rfl, rfl⟩
    exact ⟨t, (runInputs_command _ (i := .update true d) hs rfl rfl rfl).trans hrun, hd.append ht⟩

/-! ## Runs of a stream (R103) -/

/-- One chunk, with its sink write where there is a sink, is taken in, and the next read is
outstanding. -/
theorem runInputs_chunk {s : State} {sk : Bool} {d : List Byte} (es : List Input)
    (hs : s.strm = .awaitRead sk) (hd : d ≠ []) (hlen : d.length ≤ s.chunkSize) :
    ∃ t, runInputs ((if sk then [.sourceAnswer (.data d), .sinkAnswer .ok]
        else [.sourceAnswer (.data d)]) ++ es) s = runInputs es t ∧
      t.strm = .awaitRead sk ∧ Absorbed d s t := by
  cases sk with
  | true =>
    exact ⟨_, runInputs_sinkChunk es hs hd hlen, rfl, rfl, absorb_tbr_toNat d s, rfl, rfl, rfl⟩
  | false =>
    exact ⟨_, runInputs_cons (deliver_chunk (s := { s with inbox := [] }) hs hd hlen), rfl, rfl,
      absorb_tbr_toNat d s, rfl, rfl, rfl⟩

/-- A stream takes in its chunks one after the other and then ends. -/
theorem runInputs_streamAnswers {s : State} {sk : Bool} (ds : List (List Byte))
    (hs : s.strm = .awaitRead sk) (hds : ∀ d ∈ ds, d ≠ [] ∧ d.length ≤ s.chunkSize) :
    ∃ t, runInputs (streamAnswers sk ds) s = .next (endStream t) ∧ Absorbed ds.flatten s t := by
  induction ds generalizing s with
  | nil =>
    exact ⟨{ s with inbox := [] }, runInputs_cons (deliver_endOfSource hs), .withInbox s []⟩
  | cons d ds ih =>
    obtain ⟨⟨hd, hlen⟩, hds⟩ := List.forall_mem_cons.mp hds
    obtain ⟨t, hchunk, ht, hst⟩ := runInputs_chunk (streamAnswers sk ds) hs hd hlen
    obtain ⟨u, hrun, htu⟩ := ih ht (by rwa [hst.chunkSize])
    refine ⟨u, ?_, hst.append htu⟩
    rw [← hrun, ← hchunk]
    simp [streamAnswers]

/-! ## The statements -/

/-- Settles O35: a stream, and a run of UPDATEs, take in their parts one after the other, which is
their concatenation. -/
theorem chunkBoundaryIndependence : Obligations.ChunkBoundaryIndependence := by
  refine fun s ds hs => ⟨fun hds sk => ?_, ?_⟩
  · have hstart := deliver_checksumStream (s := { s with inbox := [] }) (sk := sk) hs
    obtain ⟨t, hrun, ht⟩ := runInputs_streamAnswers
      (s := requestRead sk { s with inbox := [], tbr := 0#64, busy := true }) ds rfl hds
    have htbr : t.tbr = BitVec.ofNat 64 ds.flatten.length := by simpa using ht.tbr
    exact ⟨endStream t, (runInputs_cons hstart).trans hrun,
      congrArg (fun r : Word => (~~~ r).setWidth 64) ht.reg, ht.reg, htbr, rfl, rfl, rfl, rfl⟩
  · obtain ⟨t, hrun, ht⟩ := runInputs_updates ds hs
    exact ⟨t, hrun, ht.reg, ht.tbr⟩

/-- Settles O45: RESET and NEW_CRC leave the same fresh register, table and bit order, the table by
the invariant. -/
theorem resetIdempotence : Obligations.ResetIdempotence := by
  intro s m hinv hs
  obtain ⟨t, ht, htres⟩ := runInputs_update_readCrc
    (s := performed .reset { s with inbox := [] }) m hs rfl
  obtain ⟨u, hu, hures⟩ := runInputs_update_readCrc
    (s := performed (.newCrc s.bitord s.poly) { s with inbox := [] }) m ⟨hs.1, rfl⟩ rfl
  have htcrc : t.result = (crc s.poly s.bitord m).setWidth 64 := by
    rw [crc, ← hinv.table hs.2]
    exact htres
  exact ⟨t, u, (runInputs_command _ hs rfl rfl rfl).trans ht,
    (runInputs_command _ hs rfl rfl rfl).trans hu, htcrc.trans hures.symm, htcrc⟩

/-- Settles O18: the state of an I/O error is written out, and it is not BUSY. -/
theorem ioErrorEndsTheStream : Obligations.IoErrorEndsTheStream := by
  refine fun s k => ⟨fun sk hs => ⟨_, _, (deliver_sourceFail k hs).trans
      (congrArg Host.Outcome.next (ioError_eq .ioRead k s))⟩, fun d hs => ⟨_, _,
    (deliver_sinkFail k hs).trans (congrArg Host.Outcome.next (ioError_eq .ioWrite k s))⟩,
    fun t ht => ?_⟩
  obtain ⟨e, rfl⟩ := ioError_of_deliver_fail ht
  exact ⟨fun hvalid => ⟨_, exec_ready .reset ⟨rfl, hvalid⟩ rfl rfl, rfl, rfl, rfl⟩,
    fun bo poly => ⟨_, newCrcResult _ bo poly rfl, rfl, rfl, rfl⟩⟩

/-- Settles O20. A RESET that finds no engine fails, and so does the one after it. -/
theorem resetResult : Obligations.ResetResult := by
  refine ⟨decode_encode (i := .reset) rfl, fun s => ⟨fun hs => ?_, accept_configured_invalid _,
    fun t u ht hu => ?_, fun t hs ht => ?_⟩⟩
  · exact (exec_ready .reset hs rfl rfl).trans (congrArg Host.Outcome.next (complete_eq hs.1))
  · obtain ⟨-, ⟨hvalid, rfl⟩ | ⟨hinvalid, rfl⟩⟩ := execReset_next ht
    · obtain ⟨-, ⟨-, rfl⟩ | ⟨hinvalid, -⟩⟩ := execReset_next hu
      · rfl
      · cases hvalid.symm.trans hinvalid
    · obtain ⟨-, ⟨hvalid, -⟩ | ⟨-, rfl⟩⟩ := execReset_next hu
      · cases hvalid.symm.trans hinvalid
      · rfl
  · obtain rfl := eq_performed_of_exec hs rfl rfl ht
    exact exec_readCrc_regInit hs rfl

/-- Settles O21: the example by the serial steps; `Z` is by definition the update by the byte 0. -/
theorem updateByteResult : Obligations.UpdateByteResult := by
  refine ⟨?_, by decide, fun s b => ⟨decode_encode (i := .updateByte b) rfl, fun hs => ?_,
    fun hs => ?_, accept_configured_invalid _⟩⟩
  · rw [updateByte_normal]
    decide
  · exact ⟨_, exec_ready (.updateByte 0#8) hs rfl rfl, rfl⟩
  · exact (exec_ready (.updateByte b) hs rfl rfl).trans
      (congrArg Host.Outcome.next (complete_eq hs.1))

/-- Settles O22: `n` bytes one after the other are the block of `n` copies. -/
theorem updateRepeatResult : Obligations.UpdateRepeatResult := by
  refine ⟨?_, fun s b n => ⟨decode_encode (i := .updateRepeat b n) rfl, fun hs => ?_,
    fun hs => ?_, accept_configured_invalid _⟩⟩
  · simp [updateBlock_normal, divStep, finalize]
  · exact ⟨_, exec_ready (.updateRepeat b 0#32) hs rfl rfl, rfl⟩
  · rw [exec_ready (.updateRepeat b n) hs rfl rfl, updateBlock_replicate]
    exact congrArg Host.Outcome.next (complete_eq hs.1)

/-- Settles O23: taking in the empty buffer adds no byte. -/
theorem updateResult : Obligations.UpdateResult := by
  refine ⟨updateBlock_checkMessage, rfl, fun s buf => ⟨decode_encode (i := .update true buf) rfl,
    decode_absentUpdate buf, fun hs => ?_, fun hs => ?_, fun hs => exec_inputAbsent hs rfl,
    fun p => accept_configured_invalid _⟩⟩
  · exact ⟨_, exec_ready (.update true []) hs rfl rfl, rfl, BitVec.add_zero _, rfl⟩
  · rw [exec_ready (.update true buf) hs rfl rfl, performed, absorb_eq]
    exact congrArg Host.Outcome.next (complete_eq hs.1)

/-- Settles O24: finalization reads REG and does not write it, so a second READ_CRC reads the same
register; NEW_CRC and RESET leave all ones there. -/
theorem readCrcResult : Obligations.ReadCrcResult := by
  refine ⟨decode_encode (i := .readCrc) rfl, ?_, fun s t u ht hu => ?_, fun s t i hs hi ht => ?_,
    fun s => ⟨fun hs => ?_, accept_configured_invalid _⟩⟩
  · rw [crc, show Config.regInit = 0xFFFFFFFF#32 from rfl, updateBlock_checkMessage]
    decide
  · obtain ⟨-, ⟨hvalid, rfl⟩ | ⟨hinvalid, rfl⟩⟩ := execReadCrc_next ht
    · obtain ⟨-, ⟨-, rfl⟩ | ⟨-, rfl⟩⟩ := execReadCrc_next hu
      · rfl
      · rfl
    · obtain ⟨-, ⟨hvalid, -⟩ | ⟨-, rfl⟩⟩ := execReadCrc_next hu
      · cases hvalid.symm.trans hinvalid
      · rfl
  · obtain rfl | ⟨bo, poly, rfl⟩ := hi
    · obtain rfl := eq_performed_of_exec hs rfl rfl ht
      exact exec_readCrc_regInit hs rfl
    · obtain rfl := eq_performed_of_exec hs rfl rfl ht
      exact exec_readCrc_regInit ⟨hs.1, rfl⟩ rfl
  · exact (exec_ready .readCrc hs rfl rfl).trans
      (congrArg Host.Outcome.next (completeWith_eq _ hs.1))

/-- Settles O25: behind the checks READ_COUNT completes with TBR. -/
theorem readCountResult : Obligations.ReadCountResult := fun _ =>
  ⟨fun hs => (exec_ready .readCount hs rfl rfl).trans
    (congrArg Host.Outcome.next (completeWith_eq _ hs.1)), accept_configured_invalid _⟩

/-- Settles O31: the start is the first read request, behind the checks. -/
theorem streamStarts : Obligations.StreamStarts := fun _ sk =>
  ⟨fun hs => exec_ready (.checksumStream true sk) hs rfl rfl, fun hs => exec_inputAbsent hs rfl,
    fun _ => accept_configured_invalid _⟩

/-- Settles O32: an answer that is neither empty nor too long is a chunk; a longer one is
refused. -/
theorem streamTakesAChunk : Obligations.StreamTakesAChunk := by
  refine fun s d => ⟨fun hs hd hlen => ?_, fun hs hd hlen => ?_, fun sk hs hlong => ?_⟩
  · exact deliver_chunk hs hd hlen
  · rw [deliver_chunk hs hd hlen, absorb_eq]
    rfl
  · rw [deliver_sourceAnswer _ hs, answerRead, if_pos hlong]

/-- Settles O33: only the sink's answer decides. -/
theorem streamAbsorbsAfterTheSink : Obligations.StreamAbsorbsAfterTheSink := by
  refine fun s d hs => ⟨?_, fun k => ⟨_, deliver_sinkFail k hs, rfl, rfl, rfl, rfl, rfl, rfl⟩⟩
  rw [deliver_sinkAnswer _ hs, answerWrite, absorb_eq]
  rfl

/-- Settles O34: the end finalizes REG as READ_CRC does, and keeps it. -/
theorem streamEnds : Obligations.StreamEnds := by
  refine fun s sk hs => ⟨?_, fun t ht hvalid => ?_⟩
  · rw [deliver_endOfSource hs, endStream_eq]
  · obtain rfl : endStream s = t := by simpa [deliver_endOfSource hs] using ht
    exact ⟨_, exec_ready .readCrc ⟨rfl, hvalid⟩ rfl rfl, rfl⟩

end Sys2Proof.Machine
end

section
/-! SUPPORT. A linear operator on the register is multiplication by its columns, so
square-and-multiply iterates `Z`, and COMBINE is the CRC of the concatenation; then the statements
of 42_crc_combine.md. -/

namespace Sys2Proof.Machine

/-! ## Multiplication by a matrix (R110, R113) -/

theorem getLsbD_one_shiftLeft (i k : Fin 32) :
    (1#32 <<< i.val).getLsbD k.val = decide (i = k) := by
  revert i k
  decide

/-- A fold whose steps do nothing but at one place is the step at that place. -/
theorem foldl_eq_of_single {α β : Type} {g : β → α → β} {k : α} {l : List α}
    (hg : ∀ i, i ≠ k → ∀ b, g b i = b) (hl : l.Nodup) (hk : k ∈ l) (b : β) :
    l.foldl g b = g b k := by
  induction l with
  | nil => cases hk
  | cons i l ih =>
    obtain ⟨hi, hl⟩ := List.nodup_cons.mp hl
    rw [List.foldl_cons]
    obtain rfl | hk := List.mem_cons.mp hk
    · refine List.foldlRecOn l g (motive := (· = g b k)) rfl fun c hc j hj => ?_
      exact (hg j (ne_of_mem_of_not_mem hj hi) c).trans hc
    · rw [hg i (ne_of_mem_of_not_mem hk hi).symm, ih hl hk]

theorem gf2Times_one_shiftLeft (M : GfMatrix) (k : Fin 32) :
    gf2Times M (1#32 <<< k.val) = M[k] := by
  have hother : ∀ i, i ≠ k → ∀ acc : Word,
      (if (1#32 <<< k.val).getLsbD i.val then acc ^^^ M[i] else acc) = acc := fun i hi acc =>
    if_neg (by rw [getLsbD_one_shiftLeft, decide_eq_true_iff]; exact hi.symm)
  rw [gf2Times, foldl_eq_of_single hother (List.nodup_finRange 32) (List.mem_finRange k),
    getLsbD_one_shiftLeft, decide_eq_true rfl, if_pos rfl, BitVec.zero_xor]

theorem getLsbD_gf2Times (M : GfMatrix) (v : Word) (k : Nat) :
    (gf2Times M v).getLsbD k =
      (List.finRange 32).foldl (fun bit i => bit ^^ (v.getLsbD i.val && M[i].getLsbD k)) false := by
  have hstep : ∀ (acc : Word) (i : Fin 32),
      (acc.getLsbD k ^^ (v.getLsbD i.val && M[i].getLsbD k)) =
        (if v.getLsbD i.val then acc ^^^ M[i] else acc).getLsbD k := fun acc i => by
    cases v.getLsbD i.val <;> simp
  have hinit : false = (0#32).getLsbD k := BitVec.getLsbD_zero.symm
  rw [gf2Times, hinit]
  exact (List.foldl_hom (fun acc : Word => acc.getLsbD k) hstep).symm

theorem foldl_xor_xor {α : Type} (p q : α → Bool) (l : List α) (x y : Bool) :
    l.foldl (fun bit i => bit ^^ (p i ^^ q i)) (x ^^ y) =
      (l.foldl (fun bit i => bit ^^ p i) x ^^ l.foldl (fun bit i => bit ^^ q i) y) := by
  induction l generalizing x y with
  | nil => rfl
  | cons i l ih =>
    rw [List.foldl_cons, List.foldl_cons, List.foldl_cons, ← ih, Bool.xor_assoc,
      Bool.xor_assoc, Bool.xor_left_comm y]

theorem gf2Times_xor (M : GfMatrix) (a b : Word) :
    gf2Times M (a ^^^ b) = gf2Times M a ^^^ gf2Times M b := by
  apply BitVec.eq_of_getLsbD_eq
  intro k _
  rw [BitVec.getLsbD_xor, getLsbD_gf2Times, getLsbD_gf2Times, getLsbD_gf2Times, ← foldl_xor_xor]
  simp only [BitVec.getLsbD_xor, Bool.and_xor_distrib_right, Bool.xor_self]

/-- The matrix with the one-bit words as its columns. -/
def gf2One : GfMatrix := Vector.ofFn fun i => 1#32 <<< i.val

theorem gf2One_getElem (i : Fin 32) : gf2One[i] = 1#32 <<< i.val := by simp [gf2One]

/-- A word is the XOR of its one-bit words: bit `k` comes from column `k` alone. -/
theorem gf2Times_gf2One (v : Word) : gf2Times gf2One v = v := by
  apply BitVec.eq_of_getLsbD_eq
  intro k hk
  have hcol : ∀ i : Fin 32, gf2One[i].getLsbD k = decide (i = ⟨k, hk⟩) := fun i => by
    rw [gf2One_getElem, getLsbD_one_shiftLeft i ⟨k, hk⟩]
  have hother : ∀ i : Fin 32, i ≠ ⟨k, hk⟩ → ∀ bit : Bool,
      (bit ^^ (v.getLsbD i.val && gf2One[i].getLsbD k)) = bit := fun i hi bit => by
    rw [hcol, decide_eq_false hi, Bool.and_false, Bool.xor_false]
  rw [getLsbD_gf2Times,
    foldl_eq_of_single hother (List.nodup_finRange 32) (List.mem_finRange ⟨k, hk⟩), hcol,
    decide_eq_true rfl, Bool.and_true, Bool.false_xor]

theorem eq_zero_of_linear {f : Word → Word} (hf : ∀ a b, f (a ^^^ b) = f a ^^^ f b) :
    f 0#32 = 0#32 := by
  simpa using hf 0#32 0#32

/-- A linear operator is multiplication by the matrix of its columns. -/
theorem gf2Times_eq_of_linear {f : Word → Word} (hf : ∀ a b, f (a ^^^ b) = f a ^^^ f b)
    {M : GfMatrix} (hM : ∀ i : Fin 32, M[i] = f (1#32 <<< i.val)) (v : Word) :
    gf2Times M v = f v := by
  calc gf2Times M v = f (gf2Times gf2One v) := by
        rw [gf2Times, ← eq_zero_of_linear hf]
        refine List.foldl_hom f fun acc i => ?_
        rw [apply_ite f, hf, hM, gf2One_getElem]
    _ = f v := by rw [gf2Times_gf2One]

/-! ## The zero-byte operator and its matrix (R111, R112) -/

theorem zeroMatrix_getElem (T : Vector Word 256) (bo : BitOrder) (i : Fin 32) :
    (zeroMatrix T bo)[i] = zeroByte T bo (1#32 <<< i.val) := by
  simp [zeroMatrix]

theorem zeroByte_zero (poly : Word) (bo : BitOrder) :
    zeroByte (buildTable poly bo) bo 0#32 = 0#32 :=
  eq_zero_of_linear (zeroByte_xor poly bo)

theorem gf2Times_zeroMatrix (poly : Word) (bo : BitOrder) (r : Word) :
    gf2Times (zeroMatrix (buildTable poly bo) bo) r = zeroByte (buildTable poly bo) bo r :=
  gf2Times_eq_of_linear (zeroByte_xor poly bo) (zeroMatrix_getElem _ bo) r

/-- The low eight bits select a table entry and leave the register; the others move down. -/
theorem zeroByte_normal_one_shiftLeft (poly : Word) (i : Fin 32) :
    zeroByte (buildTable poly .normal) .normal (1#32 <<< i.val) =
      if i.val < 8 then lookup (buildTable poly .normal) (1#8 <<< i.val)
      else 1#32 <<< (i.val - 8) := by
  have hindex : ∀ i : Fin 32, tableIndex .normal (1#32 <<< i.val) 0#8 =
      if i.val < 8 then 1#8 <<< i.val else 0#8 := by decide
  have hshift : ∀ i : Fin 32, shiftReg .normal (1#32 <<< i.val) =
      if i.val < 8 then 0#32 else 1#32 <<< (i.val - 8) := by decide
  rw [zeroByte, updateByte, hindex, hshift]
  split
  · exact BitVec.zero_xor
  · rw [lookup_zero, BitVec.xor_zero]

/-- The high eight bits select a table entry and leave the register; the others move up. -/
theorem zeroByte_reflected_one_shiftLeft (poly : Word) (i : Fin 32) :
    zeroByte (buildTable poly .reflected) .reflected (1#32 <<< i.val) =
      if i.val < 24 then 1#32 <<< (i.val + 8)
      else lookup (buildTable poly .reflected) (1#8 <<< (i.val - 24)) := by
  have hindex : ∀ i : Fin 32, tableIndex .reflected (1#32 <<< i.val) 0#8 =
      if i.val < 24 then 0#8 else 1#8 <<< (i.val - 24) := by decide
  have hshift : ∀ i : Fin 32, shiftReg .reflected (1#32 <<< i.val) =
      if i.val < 24 then 1#32 <<< (i.val + 8) else 0#32 := by decide
  rw [zeroByte, updateByte, hindex, hshift]
  split
  · rw [lookup_zero, BitVec.xor_zero]
  · exact BitVec.zero_xor

/-! ## Square-and-multiply (R114, R115) -/

theorem gf2Square_getElem (M : GfMatrix) (i : Fin 32) : (gf2Square M)[i] = gf2Times M M[i] := by
  simp [gf2Square]

theorem gf2Times_gf2Square (M : GfMatrix) (v : Word) :
    gf2Times (gf2Square M) v = gf2Times M (gf2Times M v) :=
  gf2Times_eq_of_linear (f := fun v => gf2Times M (gf2Times M v))
    (fun a b => by rw [gf2Times_xor, gf2Times_xor])
    (fun i => by rw [gf2Square_getElem, gf2Times_one_shiftLeft]) v

theorem gf2Times_gf2Square_iterate (M : GfMatrix) (n : Nat) (v : Word) :
    (gf2Times (gf2Square M))^[n] v = (gf2Times M)^[2 * n] v := by
  rw [Function.iterate_mul, show (gf2Times M)^[2] = gf2Times (gf2Square M) from
    funext fun v => (gf2Times_gf2Square M v).symm]

theorem zerosLoop_zero (fuel : Nat) (M : GfMatrix) (v : Word) : zerosLoop fuel M v 0#32 = v := by
  cases fuel with
  | zero => rfl
  | succ fuel => exact if_pos rfl

/-- The last round does not square the matrix; no later round would use it. -/
theorem zerosLoop_succ (fuel : Nat) (M : GfMatrix) (v : Word) {n : Word} (hn : n ≠ 0#32) :
    zerosLoop (fuel + 1) M v n =
      zerosLoop fuel (gf2Square M) (if n.getLsbD 0 then gf2Times M v else v) (n >>> 1) := by
  rw [zerosLoop, if_neg hn]
  by_cases hlast : n >>> 1 = 0#32
  · simp only [hlast, zerosLoop_zero]
  · simp only [if_neg hlast]

/-- The low bit of the count is one application of `M`, the rest counts applications of `M`
squared. -/
theorem zerosLoop_eq_iterate {fuel : Nat} (M : GfMatrix) (v : Word) {n : Word}
    (hfuel : n.toNat < 2 ^ fuel) : zerosLoop fuel M v n = (gf2Times M)^[n.toNat] v := by
  induction fuel generalizing M v n with
  | zero =>
    have hn : n.toNat = 0 := by omega
    rw [hn]
    rfl
  | succ fuel ih =>
    by_cases hn : n = 0#32
    · subst hn
      exact zerosLoop_zero _ M v
    have hhalf : (n >>> 1).toNat = n.toNat / 2 := by
      rw [BitVec.toNat_ushiftRight, Nat.shiftRight_one]
    have hbit : (if n.getLsbD 0 then gf2Times M v else v) = (gf2Times M)^[n.toNat % 2] v := by
      rw [BitVec.getLsbD, Nat.testBit_zero]
      obtain h | h := Nat.mod_two_eq_zero_or_one n.toNat <;> simp [h]
    rw [zerosLoop_succ fuel M v hn, ih _ _ (by rw [hhalf]; omega), hbit, hhalf,
      gf2Times_gf2Square_iterate, ← Function.iterate_add_apply, Nat.div_add_mod]

theorem zeros_eq_iterate (poly : Word) (bo : BitOrder) (v n : Word) :
    zeros (buildTable poly bo) bo v n = (zeroByte (buildTable poly bo) bo)^[n.toNat] v := by
  rw [zeros, zerosLoop_eq_iterate _ v n.isLt, funext (gf2Times_zeroMatrix poly bo)]

/-! ## The CRC of a concatenation (R118) -/

theorem finalize_eq_xor_regInit (r : Word) : finalize r = r ^^^ Config.regInit :=
  BitVec.xor_allOnes.symm

/-- The complements and the initial registers of the two public values cancel. -/
theorem crc_append (poly : Word) (bo : BitOrder) (A B : List Byte) :
    crc poly bo (A ++ B) =
      (zeroByte (buildTable poly bo) bo)^[B.length] (crc poly bo A) ^^^ crc poly bo B := by
  simp only [crc, finalize_eq_xor_regInit, updateBlock_append]
  generalize updateBlock (buildTable poly bo) bo Config.regInit A = a
  rw [updateBlock_eq_zeroByte_iterate_xor poly bo B a,
    updateBlock_eq_zeroByte_iterate_xor poly bo B Config.regInit,
    iterate_xor (zeroByte_xor poly bo) B.length a Config.regInit]
  generalize (zeroByte (buildTable poly bo) bo)^[B.length] Config.regInit = z
  generalize (zeroByte (buildTable poly bo) bo)^[B.length] a = za
  generalize updateBlock (buildTable poly bo) bo 0#32 B = b
  calc za ^^^ b ^^^ Config.regInit
      = za ^^^ (z ^^^ z) ^^^ b ^^^ Config.regInit := by rw [BitVec.xor_self, BitVec.xor_zero]
    _ = za ^^^ z ^^^ (z ^^^ b ^^^ Config.regInit) := by ac_rfl

theorem crc_append_eq_zeros (poly : Word) (bo : BitOrder) (A : List Byte) {B : List Byte}
    (hB : B.length < 2 ^ 32) :
    crc poly bo (A ++ B) =
      zeros (buildTable poly bo) bo (crc poly bo A) (BitVec.ofNat 32 B.length) ^^^
        crc poly bo B := by
  rw [zeros_eq_iterate, BitVec.toNat_ofNat, Nat.mod_eq_of_lt hB, crc_append]

/-- A length operand of 0 is the length of the empty block alone. -/
theorem combined_crc (poly : Word) (bo : BitOrder) (A : List Byte) {B : List Byte}
    (hB : B.length < 2 ^ 32) :
    combined (buildTable poly bo) bo (crc poly bo A) (crc poly bo B) (BitVec.ofNat 32 B.length) =
      crc poly bo (A ++ B) := by
  rw [combined]
  split
  next hlen =>
    have hnat := congrArg BitVec.toNat hlen
    rw [BitVec.toNat_ofNat, Nat.mod_eq_of_lt hB] at hnat
    rw [List.eq_nil_of_length_eq_zero hnat, List.append_nil]
  next => exact (crc_append_eq_zeros poly bo A hB).symm

/-! ## The statements -/

/-- Settles O46, by the place each one-bit word moves to or selects. -/
theorem zeroMatrixColumns : Obligations.ZeroMatrixColumns := fun poly i =>
  ⟨(zeroMatrix_getElem _ _ i).trans (zeroByte_normal_one_shiftLeft poly i),
    (zeroMatrix_getElem _ _ i).trans (zeroByte_reflected_one_shiftLeft poly i)⟩

/-- Settles O47: the datapath is linear, and a linear operator is multiplication by its columns. -/
theorem zeroByteIsLinear : Obligations.ZeroByteIsLinear := fun poly bo =>
  ⟨zeroByte_xor poly bo, zeroByte_zero poly bo, gf2Times_zeroMatrix poly bo⟩

/-- Settles O48: `M` twice is linear, with the columns of the square. -/
theorem squareAdvancesTwice : Obligations.SquareAdvancesTwice := by
  refine ⟨gf2Square_getElem, gf2Times_gf2Square, fun M poly bo k hM v => ?_⟩
  rw [gf2Times_gf2Square, hM, hM, ← Function.iterate_add_apply, two_mul]

/-- Settles O49: square-and-multiply applies any matrix as often as the count says, and `M1` is
`Z`. -/
theorem zerosAdvancesByZeroBytes : Obligations.ZerosAdvancesByZeroBytes := zeros_eq_iterate

/-- Settles O50: the table is the one of the polynomial, by the invariant, and `Z` advances `crc(A)`
over `B` up to what `crc(B)` holds. -/
theorem combineIsTheCrcOfTheConcatenation : Obligations.CombineIsTheCrcOfTheConcatenation := by
  intro s A B lenA hinv hs hB
  have htable := hinv.table hs.2
  have hc := combined_crc s.poly s.bitord A hB
  rw [← htable] at hc
  refine ⟨_, exec_ready (.combine _ _ _ lenA) hs rfl rfl, ?_, ?_, ?_,
    _, exec_ready .readCrc hs rfl rfl, ?_⟩
  · rw [performed, hc]
    rfl
  · rw [htable]
    exact crc_append_eq_zeros s.poly s.bitord A hB
  · rw [performed, hc]
    exact BitVec.not_not
  · exact congrArg zext64 BitVec.not_not

/-- Settles O27: behind the checks COMBINE completes with `c`. -/
theorem combineResult : Obligations.CombineResult := by
  refine fun s crcA crcB lenB lenA => ⟨fun hs c hc => ?_, accept_configured_invalid _⟩
  subst hc
  exact (exec_ready (.combine crcA crcB lenB lenA) hs rfl rfl).trans
    (congrArg Host.Outcome.next (completeWith_eq _ hs.1))

/-- Settles O51: the CRC of the empty block is 0, and the meaning of COMBINE does not name
`len_a`. -/
theorem combineUnusedOperands : Obligations.CombineUnusedOperands := by
  refine ⟨fun s crcA crcB lenA hs => ?_, fun T bo poly crcA => ?_, fun _ _ _ _ _ _ => rfl⟩
  · exact ⟨_, exec_ready (.combine crcA crcB 0#32 lenA) hs rfl rfl, rfl, rfl⟩
  · rw [(emptyMessageCrc poly bo).2, BitVec.xor_zero, zeros, zerosLoop_zero]

end Sys2Proof.Machine
end

section
/-! SUPPORT. Both sums stay congruent modulo 65521 wherever the reductions fall, so any split of a
buffer reduces to one unreduced block; the loop of R127 taken apart round by round, with the bound of
each round; then the statements of 43_adler32.md. -/

namespace Sys2Proof.Machine

/-! ## Where the reductions fall does not matter (R130) -/

theorem adlerReduce_adlerBlock_adlerReduce (acc : Nat × Nat) (d : List Byte) :
    adlerReduce (adlerBlock (adlerReduce acc) d) = adlerReduce (adlerBlock acc d) :=
  adlerReduce_adlerBlock d (adlerReduce_adlerReduce acc)

theorem nmax_pos : 0 < Config.nmax := by decide

/-- With a round for every byte the loop reduces the sums of the whole buffer. -/
theorem adlerLoop_eq_reduce {fuel : Nat} {d : List Byte} (acc : Nat × Nat) (hd : d ≠ [])
    (hfuel : d.length ≤ fuel) : adlerLoop fuel acc d = adlerReduce (adlerBlock acc d) := by
  induction fuel generalizing acc d with
  | zero => exact absurd (List.eq_nil_of_length_eq_zero (Nat.le_zero.mp hfuel)) hd
  | succ fuel ih =>
    rw [adlerLoop_succ fuel acc hd]
    by_cases hrest : d.drop Config.nmax = []
    · rw [hrest, adlerLoop_nil, List.take_of_length_le (List.drop_eq_nil_iff.mp hrest)]
    · have hlen : (d.drop Config.nmax).length ≤ fuel := by
        have := nmax_pos
        rw [List.length_drop]
        omega
      rw [ih _ hrest hlen, adlerReduce_adlerBlock_adlerReduce, ← adlerBlock_append,
        List.take_append_drop]

theorem adlerAcc_eq_reduce {d : List Byte} (acc : Nat × Nat) (hd : d ≠ []) :
    adlerAcc acc d = adlerReduce (adlerBlock acc d) := adlerLoop_eq_reduce acc hd le_rfl

theorem adlerAcc_nil (acc : Nat × Nat) : adlerAcc acc [] = acc := rfl

theorem adlerAcc_lt {d : List Byte} (acc : Nat × Nat) (hd : d ≠ []) :
    (adlerAcc acc d).1 < 65521 ∧ (adlerAcc acc d).2 < 65521 := by
  rw [adlerAcc_eq_reduce acc hd]
  exact adlerReduce_lt _

/-- Over the sub-blocks `ds`, with a reduction after each; at least one of them is there. -/
theorem foldl_adlerReduce_adlerBlock {ds : List (List Byte)} (acc : Nat × Nat) (hds : ds ≠ []) :
    ds.foldl (fun acc b => adlerReduce (adlerBlock acc b)) acc =
      adlerReduce (adlerBlock acc ds.flatten) := by
  induction ds generalizing acc with
  | nil => exact absurd rfl hds
  | cons d ds ih =>
    rw [List.foldl_cons, List.flatten_cons, adlerBlock_append]
    by_cases hrest : ds = []
    · subst hrest
      rfl
    · rw [ih _ hrest, adlerReduce_adlerBlock_adlerReduce]

/-- Byte by byte is the split into sub-blocks of one byte. -/
theorem foldl_adlerReduce_adlerStep {d : List Byte} (acc : Nat × Nat) (hd : d ≠ []) :
    d.foldl (fun acc b => adlerReduce (adlerStep acc b)) acc = adlerReduce (adlerBlock acc d) := by
  calc d.foldl (fun acc b => adlerReduce (adlerStep acc b)) acc
      = (d.map ([·])).foldl (fun acc b => adlerReduce (adlerBlock acc b)) acc := by
        rw [List.foldl_map]
        rfl
    _ = adlerReduce (adlerBlock acc (d.map ([·])).flatten) :=
        foldl_adlerReduce_adlerBlock acc (by simpa using hd)
    _ = adlerReduce (adlerBlock acc d) := by rw [← List.flatMap_def, List.flatMap_singleton']

/-! ## The sums of one block, unreduced -/

/-- The bytes of a block, each as often as `s2` takes it: the first `len(B)` times, the last once. -/
def weightedSum (d : List Byte) : Nat :=
  ((List.range d.length).map fun k => (d.length - k) * (d.getD k 0#8).toNat).sum

theorem weightedSum_cons (b : Byte) (d : List Byte) :
    weightedSum (b :: d) = (d.length + 1) * b.toNat + weightedSum d := by
  simp [weightedSum, List.range_succ_eq_map, Function.comp_def]

/-- Without reductions: `s1` takes every byte once, `s2` takes `s1` once for each byte. -/
theorem adlerBlock_eq_sums (s1 s2 : Nat) (d : List Byte) :
    adlerBlock (s1, s2) d =
      (s1 + (d.map (·.toNat)).sum, s2 + d.length * s1 + weightedSum d) := by
  induction d generalizing s1 s2 with
  | nil => simp [adlerBlock, weightedSum]
  | cons b d ih =>
    have hstep : adlerBlock (s1, s2) (b :: d) =
        adlerBlock (s1 + b.toNat, s2 + (s1 + b.toNat)) d := rfl
    rw [hstep, ih, weightedSum_cons, List.map_cons, List.sum_cons, List.length_cons]
    exact Prod.ext (by ring) (by ring)

/-! ## The worst case of one block (R131) -/

/-- The largest `s2` after `n` bytes: 0xFF each, from sums of `c` each. -/
def worstSum (c n : Nat) : Nat := 255 * n * (n + 1) / 2 + (n + 1) * c

theorem worstSum_succ (c n : Nat) :
    worstSum c (n + 1) = worstSum c n + (c + 255 * (n + 1)) := by
  have hhalf : 255 * (n + 1) * (n + 1 + 1) / 2 = 255 * n * (n + 1) / 2 + 255 * (n + 1) := by
    rw [← Nat.add_mul_div_right _ _ (by decide : 0 < 2)]
    exact congrArg (· / 2) (by ring)
  rw [worstSum, worstSum, hhalf]
  ring

theorem worstSum_monotone (c : Nat) : Monotone (worstSum c) :=
  monotone_nat_of_le_succ fun n => (worstSum_succ c n).symm ▸ Nat.le_add_right _ _

/-- A bound that the worst case keeps at `m` and passes at `m + 1` makes `m` the largest
sub-block. -/
theorem worstSum_le_iff {c m bound : Nat} (hm : worstSum c m ≤ bound)
    (hsucc : bound < worstSum c (m + 1)) (n : Nat) : worstSum c n ≤ bound ↔ n ≤ m := by
  refine ⟨fun hn => ?_, fun hn => (worstSum_monotone c hn).trans hm⟩
  by_contra hlong
  have hpassed := worstSum_monotone c (show m + 1 ≤ n by omega)
  omega

/-- Both sums after a block, from sums of at most `c`. -/
theorem adlerBlock_le_worstSum {c : Nat} {acc : Nat × Nat} (h1 : acc.1 ≤ c) (h2 : acc.2 ≤ c)
    (d : List Byte) :
    (adlerBlock acc d).1 ≤ c + 255 * d.length ∧ (adlerBlock acc d).2 ≤ worstSum c d.length := by
  induction d using List.reverseRecOn with
  | nil => simpa [adlerBlock, worstSum] using ⟨h1, h2⟩
  | append_singleton d b ih =>
    obtain ⟨ih1, ih2⟩ := ih
    have hb := b.isLt
    have hstep : adlerBlock acc (d ++ [b]) =
        ((adlerBlock acc d).1 + b.toNat, (adlerBlock acc d).2 + ((adlerBlock acc d).1 + b.toNat)) :=
      adlerBlock_append acc d [b]
    rw [hstep, List.length_append, List.length_singleton, worstSum_succ]
    dsimp only
    omega

/-- Neither sum is above 65535: the halves of a seed, and what a reduction leaves. -/
def SumsFit (acc : Nat × Nat) : Prop := acc.1 ≤ 65535 ∧ acc.2 ≤ 65535

theorem adlerReduce_sumsFit (acc : Nat × Nat) : SumsFit (adlerReduce acc) := by
  obtain ⟨h1, h2⟩ := adlerReduce_lt acc
  exact ⟨by omega, by omega⟩

/-- A sub-block of at most NMAX bytes keeps the worst case of R131. -/
theorem adlerBlock_le {acc : Nat × Nat} (hacc : SumsFit acc) {d : List Byte}
    (hd : d.length ≤ 5552) :
    (adlerBlock acc d).1 ≤ 4294773495 ∧ (adlerBlock acc d).2 ≤ 4294773495 := by
  obtain ⟨h1, h2⟩ := adlerBlock_le_worstSum hacc.1 hacc.2 d
  have hworst : worstSum 65535 d.length ≤ 4294773495 := worstSum_monotone 65535 hd
  omega

/-- ADLER_BASE is the largest prime that fits in 16 bits: each number above it has a small divisor. -/
theorem prime_iff_eq_adlerBase {p : Nat} (hlow : 65521 ≤ p) (hhigh : p ≤ 65535) :
    p.Prime ↔ p = 65521 := by
  interval_cases p <;> norm_num

/-! ## The loop, round by round (R127) -/

/-- The loop after `k` rounds goes on at byte `k * NMAX` with the sums of those rounds. -/
theorem adlerLoop_add (k m : Nat) (acc : Nat × Nat) (d : List Byte) :
    adlerLoop (k + m) acc d = adlerLoop m (adlerLoop k acc d) (d.drop (k * Config.nmax)) := by
  induction k generalizing acc d with
  | zero => rw [Nat.zero_add, Nat.zero_mul, List.drop_zero]; rfl
  | succ k ih =>
    by_cases hd : d = []
    · subst hd
      simp only [List.drop_nil, adlerLoop_nil]
    · rw [Nat.succ_add, adlerLoop_succ _ acc hd, adlerLoop_succ _ acc hd, ih, List.drop_drop,
        Nat.succ_mul, Nat.add_comm Config.nmax]

/-- Where `k` rounds leave no byte, the loop has ended. -/
theorem adlerLoop_eq_adlerAcc {k : Nat} {d : List Byte} (acc : Nat × Nat)
    (h : d.drop (k * Config.nmax) = []) : adlerLoop k acc d = adlerAcc acc d := by
  have hall : d.drop (d.length * Config.nmax) = [] :=
    List.drop_eq_nil_iff.mpr (Nat.le_mul_of_pos_right _ nmax_pos)
  calc adlerLoop k acc d
      = adlerLoop (k + d.length) acc d := by rw [adlerLoop_add, h, adlerLoop_nil]
    _ = adlerLoop (d.length + k) acc d := by rw [Nat.add_comm]
    _ = adlerAcc acc d := by rw [adlerLoop_add, hall, adlerLoop_nil, adlerAcc]

/-- The round after `k` rounds. -/
theorem adlerLoop_round {k : Nat} {d : List Byte} (acc : Nat × Nat)
    (h : d.drop (k * Config.nmax) ≠ []) :
    adlerLoop (k + 1) acc d = adlerReduce
      (adlerBlock (adlerLoop k acc d) ((d.drop (k * Config.nmax)).take Config.nmax)) := by
  rw [adlerLoop_add, adlerLoop_succ 0 _ h]
  rfl

theorem adlerLoop_sumsFit (k : Nat) {acc : Nat × Nat} (hacc : SumsFit acc) (d : List Byte) :
    SumsFit (adlerLoop k acc d) := by
  induction k generalizing acc d with
  | zero => exact hacc
  | succ k ih =>
    by_cases hd : d = []
    · rwa [hd, adlerLoop_nil]
    · rw [adlerLoop_succ k acc hd]
      exact ih (adlerReduce_sumsFit _) _

/-! ## A checksum and its two sums (R125, R128) -/

theorem adlerSplit_eq (w : Word) : adlerSplit w = (w.toNat % 65536, w.toNat / 65536) := by
  have hlow (n : Nat) : n &&& 65535 = n % 65536 := Nat.and_two_pow_sub_one_eq_mod n 16
  have hhigh : w.toNat / 65536 % 65536 = w.toNat / 65536 := by omega
  simp [adlerSplit, hlow, Nat.shiftRight_eq_div_pow, hhigh]

/-- The second half of a word needs no mask. -/
theorem adlerSplit_eq_halves (w : Word) :
    adlerSplit w = ((w &&& 0xFFFF#32).toNat, (w >>> 16).toNat) := by
  refine Prod.ext rfl ?_
  rw [adlerSplit_eq, BitVec.toNat_ushiftRight, Nat.shiftRight_eq_div_pow]

theorem adlerSplit_sumsFit (w : Word) : SumsFit (adlerSplit w) := by
  have := w.isLt
  rw [adlerSplit_eq]
  exact ⟨by dsimp only; omega, by dsimp only; omega⟩

theorem adlerJoin_toNat {acc : Nat × Nat} (h : SumsFit acc) :
    (adlerJoin acc).toNat = acc.2 * 65536 + acc.1 := by
  obtain ⟨h1, h2⟩ := h
  have hlow : acc.1 % 2 ^ 32 = acc.1 := by omega
  have hhigh : (acc.2 % 2 ^ 32) <<< 16 % 2 ^ 32 = acc.2 <<< 16 := by
    rw [Nat.shiftLeft_eq, Nat.shiftLeft_eq]
    omega
  rw [adlerJoin, BitVec.toNat_or, BitVec.toNat_shiftLeft, BitVec.toNat_ofNat, BitVec.toNat_ofNat,
    hlow, hhigh, ← Nat.shiftLeft_add_eq_or_of_lt (show acc.1 < 2 ^ 16 by omega), Nat.shiftLeft_eq]

theorem adlerSplit_adlerJoin {acc : Nat × Nat} (h : SumsFit acc) :
    adlerSplit (adlerJoin acc) = acc := by
  rw [adlerSplit_eq, adlerJoin_toNat h]
  obtain ⟨h1, h2⟩ := h
  exact Prod.ext (by dsimp only; omega) (by dsimp only; omega)

theorem adlerJoin_adlerSplit (w : Word) : adlerJoin (adlerSplit w) = w := by
  apply BitVec.eq_of_toNat_eq
  rw [adlerJoin_toNat (adlerSplit_sumsFit w), adlerSplit_eq]
  exact Nat.div_add_mod' _ _

theorem extractLsb'_zero_eq_adlerSplit (w : Word) :
    w.extractLsb' 0 16 = BitVec.ofNat 16 (adlerSplit w).1 := by
  apply BitVec.eq_of_toNat_eq
  simp [adlerSplit_eq]

theorem extractLsb'_sixteen_eq_adlerSplit (w : Word) :
    w.extractLsb' 16 16 = BitVec.ofNat 16 (adlerSplit w).2 := by
  apply BitVec.eq_of_toNat_eq
  simp [adlerSplit_eq, Nat.shiftRight_eq_div_pow]

/-- No byte and no reduction: the seed, reduced or not (R129). -/
theorem adler32_nil (seed : Word) : adler32 seed [] = seed := adlerJoin_adlerSplit seed

theorem adlerAcc_sumsFit {acc : Nat × Nat} (hacc : SumsFit acc) (d : List Byte) :
    SumsFit (adlerAcc acc d) := adlerLoop_sumsFit d.length hacc d

/-- The checksum holds both sums of `adler_acc`. -/
theorem adlerSplit_adler32 (seed : Word) (d : List Byte) :
    adlerSplit (adler32 seed d) = adlerAcc (adlerSplit seed) d :=
  adlerSplit_adlerJoin (adlerAcc_sumsFit (adlerSplit_sumsFit seed) d)

/-- `adler_acc` resumes from its own sums: the reduction between the parts is one more place where a
reduction may fall. -/
theorem adlerAcc_append (acc : Nat × Nat) (X Y : List Byte) :
    adlerAcc (adlerAcc acc X) Y = adlerAcc acc (X ++ Y) := by
  by_cases hX : X = []
  · subst hX
    rfl
  by_cases hY : Y = []
  · rw [hY, List.append_nil, adlerAcc_nil]
  rw [adlerAcc_eq_reduce acc hX, adlerAcc_eq_reduce _ hY,
    adlerAcc_eq_reduce acc (List.append_ne_nil_of_left_ne_nil hX Y),
    adlerReduce_adlerBlock_adlerReduce, adlerBlock_append]

/-- ADLER32 asks for no engine (R132). -/
theorem exec_adler32 {s : State} (seed : Word) (p : Bool) (buf : List Byte)
    (hidle : s.busy = false) :
    exec (.adler32 seed p buf) s =
      .next (completeWith (zext64 (adlerValue seed p buf)) s) := accept_ready hidle

/-! ## The statements -/

/-- Settles O53: each side is the one block of the whole buffer, reduced once. -/
theorem adlerClosedForm : Obligations.AdlerClosedForm := by
  intro s1 s2 d hd
  have hacc := adlerAcc_eq_reduce (s1, s2) hd
  have hsums := hacc.trans (congrArg adlerReduce (adlerBlock_eq_sums s1 s2 d))
  refine ⟨congrArg Prod.fst hsums, congrArg Prod.snd hsums,
    hacc.trans (foldl_adlerReduce_adlerStep (s1, s2) hd).symm, ?_⟩
  rintro ds rfl
  have hds : ds ≠ [] := fun h => hd (congrArg List.flatten h)
  exact hacc.trans (foldl_adlerReduce_adlerBlock (s1, s2) hds).symm

/-- Settles O54: every round enters with sums that fit in 16 bits, and a sub-block of at most NMAX
bytes then stays within the worst case, which only grows with the number of bytes. -/
theorem adlerNoOverflow : Obligations.AdlerNoOverflow := by
  refine ⟨fun seed d k => ⟨fun hblock => ?_, fun hblock => ?_, fun j => ?_⟩, rfl, adlerSplit_sumsFit,
    adlerReduce_sumsFit, fun _ _ _ h1 h2 hd => adlerBlock_le ⟨h1, h2⟩ hd, by decide, by decide,
    worstSum_le_iff (by decide) (by decide), worstSum_le_iff (by decide) (by decide),
    fun _ => prime_iff_eq_adlerBase⟩
  · exact adlerLoop_eq_adlerAcc _ ((List.take_eq_nil_iff.mp hblock).resolve_left nmax_pos.ne')
  · exact adlerLoop_round _ fun hrest => hblock (by rw [hrest, List.take_nil])
  · refine adlerBlock_le (adlerLoop_sumsFit k (adlerSplit_sumsFit seed) d) ?_
    exact (List.length_take_le' _ _).trans (List.length_take_le _ _)

/-- Settles O55: the checksum over `X` hands both sums on. -/
theorem adlerComposition : Obligations.AdlerComposition := by
  intro seed X Y
  rw [adler32, adlerSplit_adler32, adlerAcc_append, adler32]

/-- Settles O56: the bit fields of the result are its two sums. -/
theorem adlerResultFields : Obligations.AdlerResultFields := by
  intro seed d s1 s2 hsums
  have hacc : adlerAcc (adlerSplit seed) d = (s1, s2) := by rw [adlerSplit_eq_halves, hsums]
  have hsplit : adlerSplit (adler32 seed d) = (s1, s2) := (adlerSplit_adler32 seed d).trans hacc
  refine ⟨by rw [adler32, hacc, adlerJoin], fun hd => ?_⟩
  obtain ⟨h1, h2⟩ := adlerAcc_lt (adlerSplit seed) hd
  rw [hacc] at h1 h2
  refine ⟨h1, h2, ?_, ?_⟩
  · rw [extractLsb'_zero_eq_adlerSplit, hsplit]
  · rw [extractLsb'_sixteen_eq_adlerSplit, hsplit]

/-- Settles O28: ADLER32 asks for no engine and completes with its value. -/
theorem adler32Result : Obligations.Adler32Result := by
  rintro s seed p buf hidle v rfl
  exact (exec_adler32 seed p buf hidle).trans (congrArg Host.Outcome.next (completeWith_eq _ hidle))

/-- Settles O52: with no bytes nothing is added to the sums and nothing reduced. -/
theorem adlerOfNoBytes : Obligations.AdlerOfNoBytes := by
  refine fun s seed hidle => ⟨fun buf => ⟨_, exec_adler32 seed false buf hidle, rfl⟩,
    _, exec_adler32 seed true [] hidle, ?_⟩
  exact congrArg zext64 (adler32_nil seed)

end Sys2Proof.Machine
end

section
/-! SUPPORT. The errors of a command and their order, what two instances share, and runs of a whole
checksum; then the statements of 60_exceptions.md. -/

namespace Sys2Proof.Machine

/-! ## The first error (R137, R141 to R143) -/

theorem exec_notConfigured {s : State} {i : Instr} (hidle : s.busy = false)
    (hneeds : needsEngine i = true) (hinvalid : s.cfgValid = false) :
    exec i s = .next (failedWith 5#4 s) := by
  cases i with
  | newCrc | adler32 => cases hneeds
  | _ => exact accept_configured_invalid _ hidle hinvalid

/-- A command that asks for no engine has its own effect in every configuration. -/
theorem exec_engineFree {s : State} {i : Instr} (hidle : s.busy = false)
    (hfree : needsEngine i = false) : exec i s = .next (performed i s) := by
  cases i with
  | newCrc | adler32 => exact accept_ready hidle
  | _ => cases hfree

theorem exec_operandIllegal {s : State} {i : Instr} (hs : Ready s) (h : operandIllegal i = true) :
    exec i s = .next (failedWith 6#4 s) := by
  cases i with
  | readTable index =>
    obtain ⟨-, hillegal, -⟩ := readTableResult s index
    exact hillegal hs (of_decide_eq_true h)
  | _ => cases h

theorem needsEngine_of_inputAbsent {i : Instr} (h : inputAbsent i = true) :
    needsEngine i = true := by
  cases i with
  | update | checksumStream => rfl
  | _ => cases h

theorem needsEngine_of_operandIllegal {i : Instr} (h : operandIllegal i = true) :
    needsEngine i = true := by
  cases i with
  | readTable => rfl
  | _ => cases h

/-- The answer of every command that is given while not BUSY: the first error in the order of R143,
or the command's own effect. -/
theorem exec_of_idle {s : State} (i : Instr) (hidle : s.busy = false) :
    exec i s = .next
      (if needsEngine i = true ∧ s.cfgValid = false then failedWith 5#4 s
      else if inputAbsent i = true then failedWith 1#4 s
      else if operandIllegal i = true then failedWith 6#4 s
      else performed i s) := by
  by_cases hunconfigured : needsEngine i = true ∧ s.cfgValid = false
  · rw [if_pos hunconfigured, exec_notConfigured hidle hunconfigured.1 hunconfigured.2]
  have hready (hneeds : needsEngine i = true) : Ready s :=
    ⟨hidle, by simpa [hneeds] using hunconfigured⟩
  rw [if_neg hunconfigured]
  split_ifs with habsent hillegal
  · exact exec_inputAbsent (hready (needsEngine_of_inputAbsent habsent)) habsent
  · exact exec_operandIllegal (hready (needsEngine_of_operandIllegal hillegal)) hillegal
  · cases hneeds : needsEngine i with
    | false => exact exec_engineFree hidle hneeds
    | true =>
      exact exec_ready i (hready hneeds) (Bool.eq_false_iff.mpr habsent)
        (Bool.eq_false_iff.mpr hillegal)

/-! ## What a command leaves in BUSY and ERR, and the code it reports (R139) -/

/-- A command without an error completes with code 0, or starts a stream, which keeps ERR until it
completes (log entry 16). -/
theorem performed_outcome (i : Instr) (s : State) :
    ((performed i s).busy = s.busy ∧ (performed i s).err = 0#4) ∨
      ((performed i s).busy = true ∧ (performed i s).err = s.err ∧
        ∃ p sk, i = .checksumStream p sk) := by
  cases i with
  | checksumStream p sk => exact .inr ⟨rfl, rfl, p, sk, rfl⟩
  | _ => exact .inl ⟨rfl, rfl⟩

section ReportedCode

variable {s : State} {w : Word} {r : Option DWord} {k : Option Config.IoErr}

/-- The code in the STATUS word of a failing command's completion is the code of its error. -/
theorem reported_failedWith {code : BitVec 4}
    (h : (failedWith code s).outbox = s.outbox ++ [.completed w r k]) :
    w.extractLsb' 1 4 = code := by
  have hcode : ∀ c : BitVec 4, (c.setWidth 32 <<< 1).extractLsb' 1 4 = c := by decide
  simp only [failedWith, List.append_cancel_left_eq, List.cons.injEq, Output.completed.injEq] at h
  rw [← h.1.1, hcode]

/-- A command that reports its completion, and no error, reports code 0; the start of a stream
reports none. -/
theorem reported_performed {i : Instr}
    (h : (performed i s).outbox = s.outbox ++ [.completed w r k]) : w.extractLsb' 1 4 = 0#4 := by
  cases i with
  | checksumStream => cases List.append_cancel_left h
  | _ =>
    cases List.append_cancel_left h
    exact statusWord_err _

end ReportedCode

/-! ## Instances (R151) -/

/-- A step of CORE `k` is a step of its own state, put back in its place. -/
theorem stepInstance_eq_next_iff {n : Nat} {k : Fin n} {p q : Platform n} :
    stepInstance n k p = .next q ↔
      ∃ t, step p.cores[k] = .next t ∧ q = ⟨p.cores.set k t⟩ := by
  cases h : step p.cores[k] with
  | next t => simp only [stepInstance, h, Host.Outcome.next.injEq, exists_eq_left', eq_comm]
  | fault => simp only [stepInstance, h, reduceCtorEq, false_and, exists_false]
  | refused => simp only [stepInstance, h, reduceCtorEq, false_and, exists_false]

theorem Takes.drawSource {e : Input} {s t : State} (h : Takes e s t) :
    t.drawSource = s.drawSource := by
  cases h with
  | performs => exact performed_drawSource _ _
  | _ => rfl

theorem step_drawSource {s t : State} (h : step s = .next t) : t.drawSource = s.drawSource := by
  obtain ⟨-, rfl⟩ | ⟨e, rest, -, htakes⟩ := step_takes h
  · rfl
  · exact htakes.drawSource

theorem platformReset_getElem {n : Nat} (k : Fin n) :
    (platformReset n).cores[k] = hardwareReset { State.reset with drawSource := k.val } := by
  simp [platformReset]

/-! ## Runs of a whole checksum (R151) -/

/-- UPDATEs and then READ_CRC give the finalized register after all their bytes, however they are
split. -/
theorem runInputs_updates_readCrc {s : State} (ds : List (List Byte)) (hs : Ready s) :
    ∃ t, runInputs ((ds.map fun d => .command (encode (.update true d))) ++
        [.command (encode .readCrc)]) s = .next t ∧
      t.result = zext64 (finalize (updateBlock s.table s.bitord s.reg ds.flatten)) := by
  induction ds generalizing s with
  | nil => exact ⟨_, runInputs_command (i := .readCrc) [] hs rfl rfl rfl, rfl⟩
  | cons d ds ih =>
    obtain ⟨t, hrun, hresult⟩ := ih (s := performed (.update true d) { s with inbox := [] }) hs
    refine ⟨t, (runInputs_command _ hs rfl rfl rfl).trans hrun, ?_⟩
    rw [hresult, List.flatten_cons, updateBlock_append]
    rfl

/-- A whole checksum, from any state that is not BUSY, depends on the configuration and the bytes
alone. -/
theorem runInputs_newCrc_updates_readCrc {s : State} (poly : Word) (bo : BitOrder)
    (ds : List (List Byte)) (hidle : s.busy = false) :
    ∃ t, runInputs (.command (encode (.newCrc bo poly)) ::
        (ds.map fun d => .command (encode (.update true d))) ++ [.command (encode .readCrc)]) s
          = .next t ∧
      t.result = (crc poly bo ds.flatten).setWidth 64 := by
  obtain ⟨t, hrun, hresult⟩ := runInputs_updates_readCrc
    (s := performed (.newCrc bo poly) { s with inbox := [] }) ds ⟨hidle, rfl⟩
  have hstart : deliver (.command (encode (.newCrc bo poly))) { s with inbox := [] } =
      .next (performed (.newCrc bo poly) { s with inbox := [] }) :=
    (issue_of_decode (decode_encode rfl) _).trans (exec_engineFree hidle rfl)
  exact ⟨t, (runInputs_cons hstart).trans hrun, hresult⟩

/-! ## The statements -/

/-- Settles O13: the CFG_VALID check stands before everything else a CRC-unit command does, and
NEW_CRC and ADLER32 do not make it. -/
theorem notConfiguredBeforeNewCrc : Obligations.NotConfiguredBeforeNewCrc := by
  refine fun i s hidle => ⟨exec_notConfigured hidle,
    fun hfree => ⟨_, exec_engineFree hidle hfree, ?_⟩⟩
  obtain ⟨-, herr⟩ | ⟨-, -, p, sk, rfl⟩ := performed_outcome i s
  · exact herr
  · cases hfree

/-- Settles O14: the check on the input stands before the effect, and ADLER32 makes none. -/
theorem absentInputFails : Obligations.AbsentInputFails :=
  ⟨fun _ hs => ⟨fun _ => exec_inputAbsent hs rfl, fun _ => exec_inputAbsent hs rfl⟩,
    fun _ seed buf hidle => ⟨_, exec_adler32 seed false buf hidle, rfl⟩⟩

/-- Settles O15: the reported code says which of the four answers a command gave. -/
theorem illegalOperandOnlyFromReadTable : Obligations.IllegalOperandOnlyFromReadTable := by
  refine ⟨fun s index hs hindex => exec_operandIllegal hs (decide_eq_true hindex),
    fun i s t w r k hexec hout hcode => ?_⟩
  obtain ⟨hidle, -⟩ := exec_next hexec
  obtain rfl := Host.Outcome.next.inj ((exec_of_idle i hidle).symm.trans hexec)
  split_ifs at hout with hunconfigured habsent hillegal
  · cases (reported_failedWith hout).symm.trans hcode
  · cases (reported_failedWith hout).symm.trans hcode
  · cases i with
    | readTable index => exact ⟨index, rfl, of_decide_eq_true hillegal⟩
    | _ => cases hillegal
  · cases (reported_performed hout).symm.trans hcode

/-- Settles O16: the checks are made in the order of R143, decoding first. -/
theorem firstErrorIsReported : Obligations.FirstErrorIsReported := by
  refine fun tr s hidle => ⟨fun ⟨e, he⟩ => ?_, fun i hi => ?_⟩
  · simp [issue, he, accept_ready hidle, raise_eq _ hidle, errCode]
  rw [issue_of_decode hi, exec_of_idle i hidle]
  split_ifs with hunconfigured habsent hillegal
  · rfl
  · rfl
  · rfl
  · refine ⟨_, rfl, ?_⟩
    obtain ⟨hbusy, herr⟩ | ⟨hbusy, herr, p, sk, rfl⟩ := performed_outcome i s
    · exact .inl ⟨hbusy.trans hidle, herr⟩
    · obtain rfl : p = true := by simpa [inputAbsent] using habsent
      exact .inr ⟨hbusy, herr, sk, rfl⟩

/-- Settles O17: a transaction raises an error, which writes ERR alone, or has its own effect, which
leaves code 0 or a running stream. -/
theorem errorsArePrecise : Obligations.ErrorsArePrecise := by
  intro tr s u h
  cases issue_takes h with
  | raises e hidle =>
    rw [raise_eq e hidle]
    exact ⟨fun _ => rfl, by simp [failedWith, hidle]⟩
  | @performs _ i _ _ hidle =>
    obtain ⟨hbusy, herr⟩ | ⟨hbusy, herr, -⟩ := performed_outcome i s
    · exact ⟨by simp [herr], by simp [hbusy, hidle]⟩
    · exact ⟨by simp [hbusy], fun _ => herr⟩

/-- Settles O59: a step of one CORE writes its place in the vector alone, and no input writes the
source of draws. -/
theorem instancesShareNoState : Obligations.InstancesShareNoState := by
  refine fun n k => ⟨fun p q h => ?_, fun p t h => ?_, ?_, ?_, fun s t => step_drawSource⟩
  · obtain ⟨t, hstep, rfl⟩ := stepInstance_eq_next_iff.mp h
    refine ⟨by simpa using hstep, fun j hj => ?_⟩
    exact Vector.getElem_set_ne k.isLt j.isLt fun hkj => hj (Fin.ext hkj.symm)
  · exact ⟨_, stepInstance_eq_next_iff.mpr ⟨t, h, rfl⟩, Vector.getElem_set_self _⟩
  · rw [platformReset_getElem]
    rfl
  · rw [platformReset_getElem]
    rfl

/-- Settles O60: each run gives the CRC of the bytes it was given. -/
theorem sameBytesSameChecksum : Obligations.SameBytesSameChecksum := by
  intro s s' poly bo ds ds' hidle hidle' hbytes
  obtain ⟨t, hrun, hresult⟩ := runInputs_newCrc_updates_readCrc poly bo ds hidle
  obtain ⟨t', hrun', hresult'⟩ := runInputs_newCrc_updates_readCrc poly bo ds' hidle'
  exact ⟨t, t', hrun, hrun', by rw [hresult, hresult', hbytes], hresult⟩

end Sys2Proof.Machine
end

section
/-! SUPPORT. When an input has a step, and what a transaction without an engine observes; then the
statements of 70_reset_and_hazards.md. -/

namespace Sys2Proof.Machine

/-! ## The host's contract (R159 to R161) -/

/-- A transaction given while BUSY has no step, an undecodable word's neither (log entry 11). -/
theorem issue_busy (tr : Transaction) {s : State} (h : s.busy = true) :
    issue tr s = .refused .commandWhileBusy := by
  obtain ⟨i, -, hi⟩ | ⟨-, -, hi⟩ := issue_cases tr s
  · exact hi.trans (exec_busy i h)
  · exact hi.trans (accept_busy h)

/-- A transaction given while not BUSY always answers a next state. -/
theorem issue_idle (tr : Transaction) {s : State} (h : s.busy = false) :
    ∃ t, issue tr s = .next t := by
  obtain ⟨i, -, hi⟩ | ⟨-, -, hi⟩ := issue_cases tr s
  · exact hi ▸ exec_idle i h
  · exact ⟨_, hi.trans (accept_ready h)⟩

/-- Every input that is taken keeps the contract. -/
theorem Takes.contract {e : Input} {s t : State} (h : Takes e s t) : Contract e s := by
  cases h with
  | performs _ hidle => exact hidle
  | raises _ hidle => exact hidle
  | sourceFails _ hs => exact ⟨_, hs⟩
  | sourceEnds hs => exact ⟨⟨_, hs⟩, Nat.zero_le _⟩
  | chunkGoesToSink hs _ hlen => exact ⟨⟨_, hs⟩, hlen⟩
  | chunkIsAbsorbed hs _ hlen => exact ⟨⟨_, hs⟩, hlen⟩
  | sinkFails _ hs => exact ⟨_, hs⟩
  | sinkTakesChunk hs => exact ⟨_, hs⟩
  | readsStatus => trivial
  | readsResult => trivial
  | resets => trivial

/-- Every input that keeps the contract is taken. -/
theorem deliver_of_contract {e : Input} {s : State} (h : Contract e s) :
    ∃ t, deliver e s = .next t := by
  match e, h with
  | .command tr, hidle => exact issue_idle tr hidle
  | .sourceAnswer (.fail k), ⟨_, hs⟩ => exact ⟨_, deliver_sourceAnswer (.fail k) hs⟩
  | .sourceAnswer (.data []), ⟨⟨_, hs⟩, _⟩ => exact ⟨_, deliver_endOfSource hs⟩
  | .sourceAnswer (.data (b :: d)), ⟨⟨_, hs⟩, hlen⟩ =>
    exact ⟨_, deliver_chunk hs (List.cons_ne_nil b d) hlen⟩
  | .sinkAnswer (.fail k), ⟨_, hs⟩ => exact ⟨_, deliver_sinkAnswer (.fail k) hs⟩
  | .sinkAnswer .ok, ⟨_, hs⟩ => exact ⟨_, deliver_sinkAnswer .ok hs⟩
  | .readStatus, _ | .readResult, _ | .hardwareReset, _ => exact ⟨_, rfl⟩

/-! ## The UNSPEC fields before NEW_CRC (R155) -/

/-- `s` with other values in the five fields that R155 leaves UNSPEC. -/
def withUnspec (s : State) (poly : Word) (bo : BitOrder) (T : Vector Word 256) (r : Word)
    (n : DWord) : State :=
  { s with poly := poly, bitord := bo, table := T, reg := r, tbr := n }

section Unspec

variable {s : State} (poly : Word) (bo : BitOrder) (T : Vector Word 256) (r : Word) (n : DWord)

/-- NEW_CRC overwrites the UNSPEC fields, and ADLER32 leaves them. -/
theorem performed_withUnspec {i : Instr} (hfree : needsEngine i = false) :
    performed i (withUnspec s poly bo T r n) = performed i s ∨
      performed i (withUnspec s poly bo T r n) =
        withUnspec (performed i s) poly bo T r n := by
  cases i with
  | newCrc => exact .inl rfl
  | adler32 => exact .inr rfl
  | _ => cases hfree

/-- Without an engine no command observes the UNSPEC fields: one that needs an engine fails before it
looks at them. -/
theorem exec_withUnspec {t : State} {i : Instr} (hinvalid : s.cfgValid = false)
    (h : exec i s = .next t) :
    exec i (withUnspec s poly bo T r n) = .next t ∨
      exec i (withUnspec s poly bo T r n) = .next (withUnspec t poly bo T r n) := by
  obtain ⟨hidle, -⟩ := exec_next h
  cases hneeds : needsEngine i with
  | true =>
    obtain rfl := Host.Outcome.next.inj ((exec_notConfigured hidle hneeds hinvalid).symm.trans h)
    exact .inr (exec_notConfigured (s := withUnspec s poly bo T r n) hidle hneeds hinvalid)
  | false =>
    obtain rfl := Host.Outcome.next.inj ((exec_engineFree hidle hneeds).symm.trans h)
    rw [exec_engineFree (s := withUnspec s poly bo T r n) hidle hneeds]
    exact (performed_withUnspec poly bo T r n hneeds).imp
      (congrArg Host.Outcome.next) (congrArg Host.Outcome.next)

/-- A transaction observes no UNSPEC field without an engine: an undecodable word completes with
ILLEGAL_COMMAND whatever they hold. -/
theorem issue_withUnspec {t : State} {tr : Transaction} (hinvalid : s.cfgValid = false)
    (h : issue tr s = .next t) :
    issue tr (withUnspec s poly bo T r n) = .next t ∨
      issue tr (withUnspec s poly bo T r n) = .next (withUnspec t poly bo T r n) := by
  obtain ⟨i, hd, hi⟩ | ⟨e, he, hi⟩ := issue_cases tr s
  · rw [issue_of_decode hd]
    exact exec_withUnspec poly bo T r n hinvalid (hi ▸ h)
  · obtain ⟨hidle, ht⟩ := accept_next (hi ▸ h)
    cases ht
    refine .inr ?_
    rw [issue, he]
    exact accept_ready hidle

end Unspec

/-! ## The statements -/

/-- Settles O6: what an input may do says that it kept the contract, and each clause of the contract
lets its input through. -/
theorem inputHasAStepIffContractKept : Obligations.InputHasAStepIffContractKept := fun _ _ =>
  ⟨fun ⟨_, h⟩ => (deliver_takes h).contract, deliver_of_contract⟩

/-- Settles O10: the reset values are written out, and only NEW_CRC and ADLER32 run without an
engine. -/
theorem hardwareResetState : Obligations.HardwareResetState :=
  ⟨⟨rfl, rfl, rfl, rfl, rfl, rfl⟩, fun _ => ⟨_, rfl, rfl, rfl, rfl, rfl, rfl, rfl⟩,
    fun _ _ _ poly bo T r n => issue_withUnspec poly bo T r n⟩

/-- Settles O7: BUSY stops every transaction, and the read only emits the STATUS word. -/
theorem commandWhileBusyHasNoStep : Obligations.CommandWhileBusyHasNoStep := fun _ hbusy =>
  ⟨fun tr => issue_busy tr hbusy, rfl⟩

/-- Settles O57: after hardware reset there is no engine and no stream, ERR is 0 and CHUNK_SIZE is
the default. -/
theorem invariantAtReset : Obligations.InvariantAtReset where
  table := nofun
  busy := by simp [State.reset]
  err := Nat.zero_le 6
  chunk := nofun
  engine := nofun
  chunkSize := by decide

end Sys2Proof.Machine
end
